-- ==== Sys2Proof/Word.lean ====
section
/-! DEFINITION. The word types of the block (spec/00_scope.md R15). -/

namespace Sys2Proof

/-- A raw code, a code after the offset, or a channel value: `u_8` (R15, R38, R61). -/
abbrev Byte := BitVec 8

end Sys2Proof
end

