-- ==== Sys2Proof/Config.lean ====
section
/-! DEFINITION. The configuration constants and parameters of spec/00_scope.md R8 to R12: a record
fixed before reset. The state carries it as the read-only control registers of spec/10_state.md R30,
so every statement about the machine is about every configuration. The model has no opaque constant. -/

namespace Sys2Proof

/-- The body of the error hook (R12, decision D9): the full reset of R109, or the notification alone
of R110. Other bodies are not specified (U7) and cannot be written here. -/
inductive ErrHook where
  | default
  | notifyOnly
deriving DecidableEq, Repr

/-- The generic parameters of one Alarm Timer instance (R11): the counter width `W` and the
downshift `S`. -/
structure TimerParams where
  w : Nat
  s : Nat
deriving DecidableEq, Repr

/-- The parameter table of R12. `RAW_W` is 8 by decision D1 and no field. -/
structure Config where
  /-- `CHAR_BASE` -/
  charBase : Byte
  /-- `START_DELIM`, compared after the offset (R8) -/
  startDelim : Byte
  /-- `SEND_COMMAND`, compared after the offset -/
  sendCommand : Byte
  /-- `FINISH_DELIM`, compared after the offset -/
  finishDelim : Byte
  /-- `IDLE_TIMEOUT`, coarse ticks of the decoder's timer -/
  idleTimeout : Nat
  /-- `MAX_CEILING` -/
  maxCeiling : Nat
  /-- `TW`, the width of the time source -/
  tw : Nat
  /-- `TICKS_PER_MS` -/
  ticksPerMs : Nat
  /-- `ERR_HOOK` -/
  errHook : ErrHook
  /-- `ALARM_W` and `ALARM_S` -/
  alarm : TimerParams
  /-- `W` and `S` of each stand-alone timer instance, in order -/
  timers : List TimerParams
deriving DecidableEq, Repr

/-- The standard configuration (R9, R12). DESIGN CHOICE (log entry 3): one stand-alone timer, with
the decoder's own widths. -/
def Config.standard : Config where
  charBase := 0x00
  startDelim := 0x7E
  sendCommand := 0x06
  finishDelim := 0xE7
  idleTimeout := 200
  maxCeiling := 512
  tw := 32
  ticksPerMs := 1
  errHook := .default
  alarm := ⟨16, 0⟩
  timers := [⟨16, 0⟩]

/-- The alternate, typed configuration (R10, decision D25). -/
def Config.alternate : Config :=
  { Config.standard with
    charBase := 0x20, startDelim := 0x33, sendCommand := 0x23, finishDelim := 0x26 }

/-- The horizon of a timer of width `w`: `2^(w-1) - 1` coarse ticks (R18, R103). -/
def horizon (w : Nat) : Nat := 2 ^ (w - 1) - 1

end Sys2Proof
end

