-- ==== Sys2Proof/Syntax.lean ====
section
/-! DEFINITION. The operations of the block as syntax: one constructor of `Instr` for each row of
spec/opcode_table.json, with the operands that the row's encoding leaves free. -/

namespace Sys2Proof

/-- The six ordered values of the `state` register (spec/10_state.md R20). -/
inductive DecoderState where
  | start
  | command
  | lowChannel
  | highChannel
  | data
  | finish
deriving DecidableEq, Repr

/-- The timer whose `W` and `S` a unit helper converts for: the decoder's own instance or a
stand-alone one (spec/41_alarm_timer.md R122). -/
inductive TimerSel where
  | decoder
  | standalone (k : Nat)
deriving DecidableEq, Repr

/-- The operations. `ch` is a code after the offset, `raw` a code before it, `k` the number of a
stand-alone timer. The time sample `now` is an input of the step and no operand (R13). -/
inductive Instr where
  /-- `PB.IGNORE` (R62): encoding `rrrrrrrr`. -/
  | pbIgnore (raw : Byte)
  /-- `PB.RESYNC` (R64): encoding `sss 01111110`; `sss` is the state the resynchronization leaves. -/
  | pbResync (sss : DecoderState)
  /-- `START.MATCH` (R67) -/
  | startMatch
  /-- `START.MISMATCH` (R68) -/
  | startMismatch (ch : Byte)
  /-- `COMMAND.MATCH` (R69) -/
  | commandMatch
  /-- `COMMAND.MISMATCH` (R70) -/
  | commandMismatch (ch : Byte)
  /-- `LOW.STORE` (R71) -/
  | lowStore (ch : Byte)
  /-- `HIGH.ZERO` (R73) -/
  | highZero (ch : Byte)
  /-- `HIGH.CEIL` (R74) -/
  | highCeil (ch : Byte)
  /-- `HIGH.NEW` (R75) -/
  | highNew (ch : Byte)
  /-- `HIGH.SAME` (R76) -/
  | highSame (ch : Byte)
  /-- `DATA.WRITE` (R77) -/
  | dataWrite (ch : Byte)
  /-- `DATA.FULL` (R78) -/
  | dataFull (ch : Byte)
  /-- `FINISH.MATCH` (R79) -/
  | finishMatch
  /-- `FINISH.MISMATCH` (R80) -/
  | finishMismatch (ch : Byte)
  /-- `CTRL.INIT` (R129) -/
  | ctrlInit
  /-- `T.NOP` (R96) -/
  | tNop (k : Nat)
  /-- `T.SET` (R91) -/
  | tSet (k duration : Nat)
  /-- `T.RESET` (R92) -/
  | tReset (k : Nat)
  /-- `T.DUEBY` (R93) -/
  | tDueBy (k extra : Nat)
  /-- `T.WAIT` (R94) -/
  | tWait (k duration : Nat)
  /-- `T.REPEAT` (R95) -/
  | tRepeat (k duration : Nat)
  /-- `T.RESERVED` (R97): encoding `11x`. -/
  | tReserved (k : Nat) (x : Bool)
  /-- `U.MS` (R98) -/
  | uMs (sel : TimerSel) (t : Nat)
  /-- `U.SECONDS` (R99) -/
  | uSeconds (sel : TimerSel) (t : Nat)
  /-- `U.MINUTES` (R100) -/
  | uMinutes (sel : TimerSel) (t : Nat)
  /-- `U.HOURS` (R101) -/
  | uHours (sel : TimerSel) (t : Nat)
  /-- `U.DAYS` (R102) -/
  | uDays (sel : TimerSel) (t : Nat)
  /-- `WIRE.FRAME` (R49): a whole frame of `data.length` channels, its data values after the offset. -/
  | wireFrame (data : List Byte)
deriving DecidableEq, Repr

end Sys2Proof
end

