-- ==== Sys2Proof/WellFormed.lean ====
section
/-! DEFINITION. Which configurations and operations are well formed: the constraints of
spec/00_scope.md R12 and the code conditions of spec/30_encoding.md R53, R54 and R56. -/

namespace Sys2Proof

/-- R11 (`W >= 2`) and R12, R88 (`W + S <= TW`). -/
def TimerParams.ok (tw : Nat) (p : TimerParams) : Bool :=
  decide (2 ≤ p.w) && decide (p.w + p.s ≤ tw)

/-- A code that can be offset by `CHAR_BASE` within the 8 bits of a raw code (R12, R49). -/
def Config.fits (cfg : Config) (ch : Byte) : Bool :=
  decide (ch.toNat + cfg.charBase.toNat < 256)

/-- The constraints on parameters of R12, with `MAX_CEILING` at most 512 (U13). A configuration that
breaks one is refused (U6, U13): see `Machine.hardwareReset`. -/
def Config.ok (cfg : Config) : Bool :=
  cfg.fits cfg.startDelim && cfg.fits cfg.sendCommand && cfg.fits cfg.finishDelim &&
  decide (cfg.idleTimeout ≤ horizon cfg.alarm.w) && decide (cfg.maxCeiling ≤ 512) &&
  cfg.alarm.ok cfg.tw && cfg.timers.all (TimerParams.ok cfg.tw)

/-- The instance exists. -/
def Config.hasTimer (cfg : Config) (k : Nat) : Bool :=
  decide (k < cfg.timers.length)

/-- The instance exists and the operand fits its `W` bits (R56). -/
def Config.hasTimerArg (cfg : Config) (k arg : Nat) : Bool :=
  match cfg.timers[k]? with
  | some p => decide (arg < 2 ^ p.w)
  | none => false

/-- The timer a unit helper names exists. -/
def Config.hasSel (cfg : Config) : TimerSel → Bool
  | .decoder => true
  | .standalone k => cfg.hasTimer k

/-- A frame's data: 1 to `MAX_CEILING` values, each value and each length byte able to carry the
offset (R49, R51). -/
def Config.frameOk (cfg : Config) (data : List Byte) : Bool :=
  decide (1 ≤ data.length) && decide (data.length ≤ cfg.maxCeiling) &&
  decide (data.length < 65536) &&
  cfg.fits (BitVec.ofNat 8 data.length) && cfg.fits (BitVec.ofNat 8 (data.length / 256)) &&
  data.all cfg.fits

/-- An operation whose operands its encoding admits: the code conditions of R53 and R54, the operand
widths of R56. -/
def Instr.wf (cfg : Config) : Instr → Bool
  | .pbIgnore raw => decide (raw < cfg.charBase)
  | .pbResync sss => decide (sss ≠ .start)
  | .startMatch => true
  | .startMismatch ch => cfg.fits ch && decide (ch ≠ cfg.startDelim)
  | .commandMatch => true
  | .commandMismatch ch => cfg.fits ch && decide (ch ≠ cfg.sendCommand)
  | .lowStore ch => cfg.fits ch
  | .highZero ch => cfg.fits ch
  | .highCeil ch => cfg.fits ch
  | .highNew ch => cfg.fits ch
  | .highSame ch => cfg.fits ch
  | .dataWrite ch => cfg.fits ch
  | .dataFull ch => cfg.fits ch
  | .finishMatch => true
  | .finishMismatch ch => cfg.fits ch && decide (ch ≠ cfg.finishDelim)
  | .ctrlInit => true
  | .tNop k => cfg.hasTimer k
  | .tSet k duration => cfg.hasTimerArg k duration
  | .tReset k => cfg.hasTimer k
  | .tDueBy k extra => cfg.hasTimerArg k extra
  | .tWait k duration => cfg.hasTimerArg k duration
  | .tRepeat k duration => cfg.hasTimerArg k duration
  | .tReserved k _ => cfg.hasTimer k
  | .uMs sel _ => cfg.hasSel sel
  | .uSeconds sel _ => cfg.hasSel sel
  | .uMinutes sel _ => cfg.hasSel sel
  | .uHours sel _ => cfg.hasSel sel
  | .uDays sel _ => cfg.hasSel sel
  | .wireFrame data => cfg.frameOk data

end Sys2Proof
end

