-- ==== Sys2Proof/Decode.lean ====
section
/-! DEFINITION. The encodings of spec/30_encoding.md: the dispatch of a byte operation (R52 to R54),
the control strobe (R55), the timer port (R56) and the frame on the wire (R49); the decoder over
them, total, rejecting by name; and after it the encoder written from the same tables. -/

namespace Sys2Proof

/-! ## Codes -/

/-- The binary code of the `state` register (R20, decision D3). -/
def DecoderState.code : DecoderState → BitVec 3
  | .start => 0b000
  | .command => 0b001
  | .lowChannel => 0b010
  | .highChannel => 0b011
  | .data => 0b100
  | .finish => 0b101

/-- The value a code stands for; `0b110` and `0b111` stand for none (R20). -/
def DecoderState.ofCode (n : Nat) : Option DecoderState :=
  match n with
  | 0 => some .start
  | 1 => some .command
  | 2 => some .lowChannel
  | 3 => some .highChannel
  | 4 => some .data
  | 5 => some .finish
  | _ => none

/-- The dispatch key `{state[2:0], ch[7:0]}` (R52). -/
def dispatchKey (st : DecoderState) (ch : Byte) : BitVec 11 :=
  st.code ++ ch

/-! ## Operand assembly -/

/-- `ch = raw - CHAR_BASE` (R51, R62), used only when `raw >= CHAR_BASE`. -/
def chOf (cfg : Config) (raw : Byte) : Byte :=
  raw - cfg.charBase

/-- The raw code that carries `ch` on the wire (R49). -/
def rawOf (cfg : Config) (ch : Byte) : Byte :=
  ch + cfg.charBase

/-- `declaredChannelCount` after the high byte: `d +_16 (zext_16(ch) << 8)` (R51, R72). -/
def highCount (declared : BitVec 16) (ch : Byte) : BitVec 16 :=
  declared + (ch.setWidth 16 <<< 8)

/-- The little-endian channel count `zext_16(lo) +_16 (zext_16(hi) << 8)` (R41, R51). -/
def frameCount (lo hi : Byte) : BitVec 16 :=
  highCount (lo.setWidth 16) hi

/-! ## The side conditions of the dispatch -/

/-- The four classes of a completed count, in the order R72 tests them. -/
inductive CountClass where
  | zero
  | ceil
  | new
  | same
deriving DecidableEq, Repr

/-- R72: `d' = 0`, then `d' > MAX_CEILING`, then `d' != activeChannelCount`, otherwise the same. -/
def countClass (maxCeiling : Nat) (d : BitVec 16) (active : BitVec 10) : CountClass :=
  if d = 0 then .zero
  else if maxCeiling < d.toNat then .ceil
  else if d.toNat ≠ active.toNat then .new
  else .same

/-- The run-time side conditions of R53 and R54: the idle timer is due, the class of the completed
count, and whether `writeIndex < activeChannelCount` fails. -/
structure Side where
  due : Bool
  count : CountClass
  full : Bool
deriving DecidableEq, Repr

/-! ## Words -/

/-- What an accepted input offers the decoder: a raw code with the `state` register and the side
conditions it is dispatched on, the strobe `init`, a word on a stand-alone timer's port, a call of a
unit helper, or the codes of a stream line taken as one frame. -/
inductive Word where
  | code (side : Side) (st : DecoderState) (raw : Byte)
  | init
  | timer (k : Nat) (tOp : BitVec 3) (tArg : Nat)
  | ms (sel : TimerSel) (t : Nat)
  | seconds (sel : TimerSel) (t : Nat)
  | minutes (sel : TimerSel) (t : Nat)
  | hours (sel : TimerSel) (t : Nat)
  | days (sel : TimerSel) (t : Nat)
  | frame (codes : List Byte)
deriving DecidableEq, Repr

/-- Why a list of codes is no frame of R49. -/
inductive DecodeError where
  /-- a code below `CHAR_BASE`: it would be ignored, not matched (R62) -/
  | belowBase
  /-- fewer than the four bytes of a header -/
  | noHeader
  /-- the first byte is not `START_DELIM` -/
  | startDelimiter
  /-- the second byte is not `SEND_COMMAND` -/
  | command
  /-- the count is 0 or above `MAX_CEILING` -/
  | channelCount
  /-- not N data bytes and one byte more -/
  | length
  /-- the last byte is not `FINISH_DELIM` -/
  | finishDelimiter
deriving DecidableEq, Repr

/-! ## The decoder -/

/-- Stage 3 (R53): within one state the rows are tried top to bottom. -/
def decodeStage3 (cfg : Config) (side : Side) (st : DecoderState) (ch : Byte) : Instr :=
  match st with
  | .start => if ch = cfg.startDelim then .startMatch else .startMismatch ch
  | .command => if ch = cfg.sendCommand then .commandMatch else .commandMismatch ch
  | .lowChannel => .lowStore ch
  | .highChannel =>
    match side.count with
    | .zero => .highZero ch
    | .ceil => .highCeil ch
    | .new => .highNew ch
    | .same => .highSame ch
  | .data => if side.full then .dataFull ch else .dataWrite ch
  | .finish => if ch = cfg.finishDelim then .finishMatch else .finishMismatch ch

/-- The three stages of R52, in this order. -/
def decodeCode (cfg : Config) (side : Side) (st : DecoderState) (raw : Byte) : Instr :=
  if raw < cfg.charBase then .pbIgnore raw
  else if st ≠ .start ∧ chOf cfg raw = cfg.startDelim ∧ side.due = true then .pbResync st
  else decodeStage3 cfg side st (chOf cfg raw)

/-- The timer port (R56). -/
def decodeTimer (k : Nat) (tOp : BitVec 3) (tArg : Nat) : Instr :=
  match tOp.toNat with
  | 0 => .tNop k
  | 1 => .tSet k tArg
  | 2 => .tReset k
  | 3 => .tDueBy k tArg
  | 4 => .tWait k tArg
  | 5 => .tRepeat k tArg
  | 6 => .tReserved k false
  | _ => .tReserved k true

/-- The body of a frame after its header (R49): N data bytes, then the finish delimiter. -/
def decodeFrameBody (cfg : Config) (n : Nat) (body : List Byte) : Except DecodeError Instr :=
  if n = 0 ∨ cfg.maxCeiling < n then .error .channelCount
  else if body.length ≠ n + 1 then .error .length
  else if body.getLast? ≠ some cfg.finishDelim then .error .finishDelimiter
  else .ok (.wireFrame body.dropLast)

/-- A frame's bytes after the offset (R49). -/
def decodeFrameCh (cfg : Config) : List Byte → Except DecodeError Instr
  | d :: c :: lo :: hi :: body =>
    if d ≠ cfg.startDelim then .error .startDelimiter
    else if c ≠ cfg.sendCommand then .error .command
    else decodeFrameBody cfg (frameCount lo hi).toNat body
  | _ => .error .noHeader

/-- The raw codes of one whole frame, or the reason they are none. -/
def decodeFrame (cfg : Config) (codes : List Byte) : Except DecodeError Instr :=
  if codes.any (fun raw => decide (raw < cfg.charBase)) then .error .belowBase
  else decodeFrameCh cfg (codes.map (chOf cfg))

/-- The decoder, total on every word; only a list of codes that is no frame is rejected. -/
def decode (cfg : Config) : Word → Except DecodeError Instr
  | .code side st raw => .ok (decodeCode cfg side st raw)
  | .init => .ok .ctrlInit
  | .timer k tOp tArg => .ok (decodeTimer k tOp tArg)
  | .ms sel t => .ok (.uMs sel t)
  | .seconds sel t => .ok (.uSeconds sel t)
  | .minutes sel t => .ok (.uMinutes sel t)
  | .hours sel t => .ok (.uHours sel t)
  | .days sel t => .ok (.uDays sel t)
  | .frame codes => decodeFrame cfg codes

/-! ## The encoder -/

/-- The side conditions a row does not look at. -/
def Side.any : Side := ⟨false, .zero, false⟩

/-- The raw codes of a frame: the macro `FRAME(N; d0 ... d(N-1))` of R60 over data values after the
offset (R49, log entry 12). -/
def frameCodes (cfg : Config) (data : List Byte) : List Byte :=
  (cfg.startDelim :: cfg.sendCommand :: BitVec.ofNat 8 data.length ::
    BitVec.ofNat 8 (data.length / 256) :: (data ++ [cfg.finishDelim])).map (rawOf cfg)

/-- The word of an operation, from the tables of R49, R53, R54, R55 and R56. -/
def encode (cfg : Config) : Instr → Word
  | .pbIgnore raw => .code .any .start raw
  | .pbResync sss => .code { Side.any with due := true } sss (rawOf cfg cfg.startDelim)
  | .startMatch => .code .any .start (rawOf cfg cfg.startDelim)
  | .startMismatch ch => .code .any .start (rawOf cfg ch)
  | .commandMatch => .code .any .command (rawOf cfg cfg.sendCommand)
  | .commandMismatch ch => .code .any .command (rawOf cfg ch)
  | .lowStore ch => .code .any .lowChannel (rawOf cfg ch)
  | .highZero ch => .code { Side.any with count := .zero } .highChannel (rawOf cfg ch)
  | .highCeil ch => .code { Side.any with count := .ceil } .highChannel (rawOf cfg ch)
  | .highNew ch => .code { Side.any with count := .new } .highChannel (rawOf cfg ch)
  | .highSame ch => .code { Side.any with count := .same } .highChannel (rawOf cfg ch)
  | .dataWrite ch => .code { Side.any with full := false } .data (rawOf cfg ch)
  | .dataFull ch => .code { Side.any with full := true } .data (rawOf cfg ch)
  | .finishMatch => .code .any .finish (rawOf cfg cfg.finishDelim)
  | .finishMismatch ch => .code .any .finish (rawOf cfg ch)
  | .ctrlInit => .init
  | .tNop k => .timer k 0b000 0
  | .tSet k duration => .timer k 0b001 duration
  | .tReset k => .timer k 0b010 0
  | .tDueBy k extra => .timer k 0b011 extra
  | .tWait k duration => .timer k 0b100 duration
  | .tRepeat k duration => .timer k 0b101 duration
  | .tReserved k x => .timer k (if x then 0b111 else 0b110) 0
  | .uMs sel t => .ms sel t
  | .uSeconds sel t => .seconds sel t
  | .uMinutes sel t => .minutes sel t
  | .uHours sel t => .hours sel t
  | .uDays sel t => .days sel t
  | .wireFrame data => .frame (frameCodes cfg data)

/-! ## The words of spec/opcode_table.json

The table numbers three kinds of key (R60): the 11-bit dispatch key, the one bit of `init`, the three
bits of `t_op`; and the first bytes of a frame, the first one leftmost. A word of at most 8 bits is
taken as `t_op` (of one bit, as `init`), a wider one below `2^11` as a dispatch key, any other as the
first two bytes of a frame. Log entry 13 says which rows share a word. -/

/-- What a word of the table puts on the block's inputs. -/
inductive TableWord where
  | key (st : DecoderState) (ch : Byte)
  | strobe
  | timerOp (tOp : BitVec 3)
  | wire (codes : List Byte)
deriving DecidableEq, Repr

/-- The longest frame: 517 bytes (R49). -/
def longestFrame : Nat := 517

/-- The word's reading. -/
def tableWord (nbits w : Nat) : Option TableWord :=
  if nbits = 0 then none
  else if nbits = 1 then (if w = 1 then some .strobe else none)
  else if nbits ≤ 8 then (if w < 8 then some (.timerOp (BitVec.ofNat 3 w)) else none)
  else if w < 2 ^ 11 then
    match DecoderState.ofCode (w / 256) with
    | some st => some (.key st (BitVec.ofNat 8 w))
    | none => none
  else if w < 2 ^ 16 then
    some (.wire (BitVec.ofNat 8 (w / 256) :: BitVec.ofNat 8 w ::
      List.replicate (longestFrame - 2) 0))
  else none

/-- The side conditions a dispatch key is decoded under: the registers right after reset (both counts
and `writeIndex` 0) and a sample at which the idle timer is due. -/
def tableSide (ch : Byte) : Side :=
  ⟨true, countClass Config.standard.maxCeiling (highCount 0 ch) 0, true⟩

/-- The instruction the decoder reads from a word of the table, in the standard configuration. -/
def decodeTableWord (nbits w : Nat) : Option Instr :=
  match tableWord nbits w with
  | some (.key st ch) =>
    (decode .standard (.code (tableSide ch) st (rawOf .standard ch))).toOption
  | some .strobe => (decode .standard .init).toOption
  | some (.timerOp tOp) => (decode .standard (.timer 0 tOp 0)).toOption
  | some (.wire codes) => (decode .standard (.frame codes)).toOption
  | none => none

end Sys2Proof
end

