-- ==== Sys2Proof/Machine/State.lean ====
section
/-! DEFINITION. The state of the block (spec/10_state.md), the Channel Sink's side of the boundary
(spec/20_memory.md), the inputs and the observed events (spec/00_scope.md R16), and the state after
reset (R35). All of it is plain data. -/

namespace Sys2Proof.Machine

/-- The reasons a step can stop with a fault: none. "All faults are non-fatal and self-healing; there
is no permanent failure state" (spec/60_exceptions.md R106): a frame fault is an output event and a
state change (R109), and the treatments `fault` and `stuck` are never taken
(spec/93_implementation_defined.md). Safe: there is nothing to raise. -/
inductive Fault where
deriving DecidableEq, Repr

/-- The reasons a step is refused. Each is a treatment `refuse` of spec/93_implementation_defined.md,
or a unit that does not exist. -/
inductive Refusal where
  /-- An arm of `exec` without a meaning. No arm raises it now. Safe: the model stops. -/
  | notModelled (mnemonic : String)
  /-- Raised by a sink write whose index is not below the sink's count: U5. The decoder never asks for
  one in a state that satisfies `State.Inv`. Safe: the model stops where no source says what the sink
  does. -/
  | sinkIndex
  /-- Raised by a sink reconfiguration to more than 512 channels: U5. As `sinkIndex`. Safe. -/
  | sinkCount
  /-- Raised by hardware reset of a block, or of a timer instance, whose configuration breaks the
  constraints of R12: U6, U13. Safe: the model stops where the spec tells a model to refuse. -/
  | badConfiguration
  /-- Raised by a unit helper whose result is above the horizon: U14, R122, decision D22. Safe: the
  spec refuses the call. -/
  | aboveHorizon
  /-- Raised by an operation on a stand-alone timer, or a helper call for one, that does not exist
  (log entry 10). Safe: there is no such port to put the operation on. -/
  | noSuchTimer
  /-- Raised by a word the decoder rejects, with its reason. No input leads to one: a stream line is
  handed over as a frame only where it is one. Safe: the model stops. -/
  | undecodable (reason : DecodeError)
deriving DecidableEq, Repr

/-- The tag of a frame fault: Mismatch, Resync, Zero, Ceiling (R107). -/
inductive FaultTag where
  | mismatch
  | resync
  | zero
  | ceiling
deriving DecidableEq, Repr

/-- The output events of a step (R16), with the result of a unit helper (R57) as an output of its own
(log entry 9). -/
inductive Event where
  /-- `SinkCfg(n)` -/
  | sinkCfg (n : Nat)
  /-- `SinkWrite(index, value)` -/
  | sinkWrite (index : Nat) (value : Byte)
  /-- `Accepted` -/
  | accepted
  /-- `Error(tag)` -/
  | error (tag : FaultTag)
  /-- the bit `due` of an operation of stand-alone timer `k` -/
  | due (k : Nat) (value : Bool)
  /-- the `W`-bit operand a unit helper has formed -/
  | operand (value : Nat)
deriving DecidableEq, Repr

/-- One input offered to the block. -/
inductive Input where
  /-- One clock edge at the decoder's ports (R31). -/
  | cycle (rst init inValid : Bool) (inData : Byte) (now : Nat)
  /-- A stream line `@t XX YY ...`: the codes, in order, all sampling `now = t` (R60). -/
  | line (codes : List Byte) (now : Nat)
  /-- One clock edge at the ports of stand-alone timer `k` (R31, R56). -/
  | timer (k : Nat) (rst : Bool) (tOp : BitVec 3) (tArg : Nat) (now : Nat)
  /-- A caller evaluates `ms(t)` for the timer `sel` (R57, R98). -/
  | ms (sel : TimerSel) (t : Nat)
  /-- `seconds(t)` (R99) -/
  | seconds (sel : TimerSel) (t : Nat)
  /-- `minutes(t)` (R100) -/
  | minutes (sel : TimerSel) (t : Nat)
  /-- `hours(t)` (R101) -/
  | hours (sel : TimerSel) (t : Nat)
  /-- `days(t)` (R102) -/
  | days (sel : TimerSel) (t : Nat)
deriving DecidableEq, Repr

/-- `AlarmState`: "a single scalar `scheduledTime` ... plus its generic parameters" (R29, R89). -/
structure AlarmTimer where
  params : TimerParams
  scheduledTime : BitVec params.w
deriving DecidableEq, Repr

/-- The creation value of an instance (R29). -/
def AlarmTimer.created (p : TimerParams) : AlarmTimer := ⟨p, 0⟩

/-- The Channel Sink as the boundary shows it (R37): the count last configured, and the bytes staged
since, as (index, byte) pairs with strictly rising indices. -/
structure Sink where
  count : Nat
  channels : List Host.Cell
deriving DecidableEq, Repr

/-- The state of the machine. The last four fields are the model's own (INVENTORY.md). -/
structure State where
  /-- the configuration constants (R8, R30) -/
  cfg : Config
  /-- R20 -/
  state : DecoderState
  /-- R22 -/
  pendingByte : Byte
  /-- R23 -/
  declaredChannelCount : BitVec 16
  /-- R24 -/
  activeChannelCount : BitVec 10
  /-- R25 -/
  writeIndex : BitVec 10
  /-- R27 -/
  okIndicator : Bool
  /-- the decoder's own timer (R29) -/
  alarm : AlarmTimer
  /-- the stand-alone timers (R1, R19) -/
  timers : List AlarmTimer
  /-- the other side of the sink's boundary (R37 to R39) -/
  sink : Sink
  /-- the sample of the operation under way (R87) -/
  now : Nat
  /-- the inputs not yet accepted, oldest first -/
  inputs : List Input
  /-- the events of the last step, in order: the registered output pulses (R16, R140) -/
  out : List Event
  /-- the events of the steps before it, in order (R16) -/
  trace : List Event
deriving DecidableEq, Repr

/-- Right after hardware reset (R35) of the standard configuration, at the sample 0 (log entry 2),
with the one event of the reset. -/
def State.reset : State where
  cfg := .standard
  state := .start
  pendingByte := 0
  declaredChannelCount := 0
  activeChannelCount := 0
  writeIndex := 0
  okIndicator := false
  alarm := ⟨⟨16, 0⟩, 0⟩
  timers := [⟨⟨16, 0⟩, 0⟩]
  sink := ⟨0, []⟩
  now := 0
  inputs := []
  out := [.sinkCfg 0]
  trace := []

end Sys2Proof.Machine
end

