-- ==== Sys2Proof/Machine/Operands.lean ====
section
/-! DEFINITION. The operands of the operations: the coarsened time sample (spec/41_alarm_timer.md
R88), the `W`-bit operand of a timer operation (R56, R90) and the unit helpers' arithmetic (R122).
The code after the offset and the channel count (spec/30_encoding.md R51) are in Decode.lean. -/

namespace Sys2Proof.Machine

/-- `coarsen(t) = trunc_W(t >> S)` of a `TW`-bit sample (R88); the port carries the sample's low `TW`
bits (log entry 14). -/
def coarsen (tw : Nat) (p : TimerParams) (now : Nat) : BitVec p.w :=
  (BitVec.ofNat tw now >>> p.s).setWidth p.w

/-- A duration or `extra` as the unsigned `W`-bit value of R90 and decision D27. -/
def timerOperand (p : TimerParams) (arg : Nat) : BitVec p.w :=
  BitVec.ofNat p.w arg

/-- `up(x) = (x + 2^S - 1) >> S`, an exact natural-number computation (R122, R104). -/
def up (s x : Nat) : Nat :=
  (x + 2 ^ s - 1) >>> s

/-- Milliseconds in a second, a minute, an hour and a day (R99 to R102; G3). -/
def msPerSecond : Nat := 1000
def msPerMinute : Nat := 60000
def msPerHour : Nat := 3600000
def msPerDay : Nat := 86400000

/-- The class of the count that the high byte `ch` completes (R72). -/
def State.countClassOf (s : State) (ch : Byte) : CountClass :=
  countClass s.cfg.maxCeiling (highCount s.declaredChannelCount ch) s.activeChannelCount

end Sys2Proof.Machine
end

