-- ==== Sys2Proof/Machine/Flags.lean ====
section
/-! DEFINITION. The block's flags: the Boolean `due` (spec/10_state.md R28, spec/41_alarm_timer.md
R90), the success indicator (R27), and the port code of a fault tag (spec/60_exceptions.md R108). -/

namespace Sys2Proof.Machine

/-- `DueBy(c, sched, extra)`: `signed_W(c -_W (sched +_W extra)) >= 0` (R90). -/
def dueBy {w : Nat} (c sched extra : BitVec w) : Bool :=
  decide (0 ≤ (c - (sched + extra)).toInt)

/-- `dueBy(extra)` of an instance at a sample (R93). -/
def AlarmTimer.dueBy (t : AlarmTimer) (tw now extra : Nat) : Bool :=
  Machine.dueBy (coarsen tw t.params now) t.scheduledTime (timerOperand t.params extra)

/-- The idle timer's answer at the step's sample (R64). -/
def State.idleDue (s : State) : Bool :=
  s.alarm.dueBy s.cfg.tw s.now s.cfg.idleTimeout

/-- `writeIndex < activeChannelCount` fails (R77, R78; log entry 15). -/
def State.full (s : State) : Bool :=
  !decide (s.writeIndex < s.activeChannelCount)

/-- `okIndicator <- v` (R113, R127). -/
def State.setOk (v : Bool) (s : State) : State :=
  { s with okIndicator := v }

/-- The character code on port `err_tag` (R108). -/
def FaultTag.code : FaultTag → BitVec 8
  | .mismatch => 0x4D
  | .resync => 0x52
  | .zero => 0x30
  | .ceiling => 0x43

end Sys2Proof.Machine
end

