-- ==== Sys2Proof/Machine/Ops.lean ====
section
/-! DEFINITION. The named operations over the sink, the events, the registers and the timers, the full
reset (spec/70_reset_and_hazards.md R127), and taking a frame fault (spec/60_exceptions.md R109,
R110). There is no return from one (R112). -/

namespace Sys2Proof.Machine

/-- The outcome of a step of this machine. -/
abbrev Result := Host.Outcome State Fault Refusal

/-- One part of a step after another: the second runs where the first has not stopped. -/
def andThen (r : Result) (f : State → Result) : Result :=
  match r with
  | .next s => f s
  | .fault e => .fault e
  | .refused e => .refused e

/-! ## The channel space (spec/20_memory.md) -/

/-- The staged bytes: strictly rising indices, none listed twice. An unlisted channel reads as no
value, so no entry can equal what an unlisted index reads as. -/
def Memory.wf : List Host.Cell → Bool
  | [] => true
  | [_] => true
  | a :: b :: rest => decide (a.1 < b.1) && Memory.wf (b :: rest)

/-- What a channel holds: `none` is "any value" (D21), or no such channel. -/
def Memory.read (m : List Host.Cell) (i : Nat) : Option Byte :=
  match m with
  | [] => none
  | (j, v) :: rest => if i = j then some v else Memory.read rest i

/-- Stage a byte, keeping the indices strictly rising. -/
def Memory.write (m : List Host.Cell) (i : Nat) (v : Byte) : List Host.Cell :=
  match m with
  | [] => [(i, v)]
  | (j, u) :: rest =>
    if i < j then (i, v) :: (j, u) :: rest
    else if i = j then (i, v) :: rest
    else (j, u) :: Memory.write rest i v

/-- The byte staged for a channel, as the rest of the model reads the sink. -/
def State.channel (s : State) (i : Nat) : Option Byte :=
  Memory.read s.sink.channels i

/-- The largest count a sink takes and one more than the largest index (R37). -/
def sinkCapacity : Nat := 512

/-! ## Events and registers -/

/-- Emit one output event (R16). -/
def State.emit (e : Event) (s : State) : State :=
  { s with out := s.out ++ [e] }

/-- `state <- st` (R20). -/
def State.goto (st : DecoderState) (s : State) : State :=
  { s with state := st }

/-- `pendingByte <- ch` (R63). -/
def State.storeByte (ch : Byte) (s : State) : State :=
  { s with pendingByte := ch }

/-- `declaredChannelCount <- zext_16(ch)` (R71). -/
def State.setLowCount (ch : Byte) (s : State) : State :=
  { s with declaredChannelCount := ch.setWidth 16 }

/-- `declaredChannelCount <- d'` (R72). -/
def State.completeCount (ch : Byte) (s : State) : State :=
  { s with declaredChannelCount := highCount s.declaredChannelCount ch }

/-- `activeChannelCount <- d[9:0]` (R75). -/
def State.activate (d : BitVec 16) (s : State) : State :=
  { s with activeChannelCount := d.setWidth 10 }

/-- `writeIndex <- 0; state <- Data` (R73 to R76). -/
def State.enterData (s : State) : State :=
  { s with writeIndex := 0, state := .data }

/-- `writeIndex <- writeIndex + 1` (R77). -/
def State.stepIndex (s : State) : State :=
  { s with writeIndex := s.writeIndex + 1 }

/-- `SinkSetCount(n)` for `n` in 0..512: the event, and every channel any value (R39, D21). -/
def State.sinkSetCount (n : Nat) (s : State) : State :=
  { s with sink := ⟨n, []⟩, out := s.out ++ [.sinkCfg n] }

/-- `SinkSetCount(n)`; a count above 512 is refused (U5). -/
def sinkConfigure (n : Nat) (s : State) : Result :=
  if n ≤ sinkCapacity then .next (s.sinkSetCount n) else .refused .sinkCount

/-- The event `SinkWrite(i, v)` and the staged byte (R38). -/
def State.sinkStage (i : Nat) (v : Byte) (s : State) : State :=
  { s with sink := ⟨s.sink.count, Memory.write s.sink.channels i v⟩,
           out := s.out ++ [.sinkWrite i v] }

/-- `MemWrite(i, 1, v)` (R38); an index not below the sink's count is refused (U5). -/
def memWrite (i : Nat) (v : Byte) (s : State) : Result :=
  if i < s.sink.count then .next (s.sinkStage i v) else .refused .sinkIndex

/-! ## Timers -/

/-- `scheduledTime <- v`. -/
def AlarmTimer.schedule (t : AlarmTimer) (v : BitVec t.params.w) : AlarmTimer :=
  { t with scheduledTime := v }

/-- `set(duration)`: `scheduledTime <- coarsen(now) +_W duration` (R91). -/
def AlarmTimer.set (t : AlarmTimer) (tw now duration : Nat) : AlarmTimer :=
  t.schedule (coarsen tw t.params now + timerOperand t.params duration)

/-- `reset()`: `scheduledTime <- coarsen(now)` (R92). -/
def AlarmTimer.rebase (t : AlarmTimer) (tw now : Nat) : AlarmTimer :=
  t.schedule (coarsen tw t.params now)

/-- `scheduledTime <- scheduledTime +_W duration` (R95). -/
def AlarmTimer.advance (t : AlarmTimer) (duration : Nat) : AlarmTimer :=
  t.schedule (t.scheduledTime + timerOperand t.params duration)

/-- The timer touch: the decoder's timer is reset with the step's one sample (R65). -/
def State.touch (s : State) : State :=
  { s with alarm := s.alarm.rebase s.cfg.tw s.now }

/-- Write stand-alone timer `k`. -/
def State.setTimer (k : Nat) (t : AlarmTimer) (s : State) : State :=
  { s with timers := s.timers.set k t }

/-- An operation on stand-alone timer `k`, with that instance read; one that does not exist is refused
(log entry 10). -/
def withTimer (k : Nat) (s : State) (f : AlarmTimer → Result) : Result :=
  match s.timers[k]? with
  | some t => f t
  | none => .refused .noSuchTimer

/-- The end of a timer operation: the instance written and its bit `due` out (R28, R56). -/
def State.timerDone (k : Nat) (t : AlarmTimer) (due : Bool) (s : State) : State :=
  (s.setTimer k t).emit (.due k due)

/-! ## Full reset, the two hooks and the frame fault -/

/-- `FullReset(coarsen(now))` (R127). -/
def State.fullReset (s : State) : State :=
  { s with
    activeChannelCount := 0
    sink := ⟨0, []⟩
    out := s.out ++ [.sinkCfg 0]
    alarm := s.alarm.rebase s.cfg.tw s.now
    okIndicator := false
    state := .start
    writeIndex := 0 }

/-- The body of the error hook (R109, R110). -/
def State.errorHook (s : State) : State :=
  match s.cfg.errHook with
  | .default => s.fullReset
  | .notifyOnly => s

/-- `raise FrameError(tag)`: taking a frame fault. The event, then the hook's body; nothing is saved,
and control goes back into the step (R109, R110). -/
def State.raise (tag : FaultTag) (s : State) : State :=
  (s.emit (.error tag)).errorHook

/-- What follows the raise of `'0'` and `'C'`: the default hook's reset stands; with the notify-only
hook the decoder goes on to `Data` (R73, R74). -/
def State.abortHeader (s : State) : State :=
  match s.cfg.errHook with
  | .default => s
  | .notifyOnly => s.enterData

/-- `Accept()` (R113): the event, and the indicator set under either error hook. -/
def State.accept (s : State) : State :=
  (s.emit .accepted).setOk true

/-- The end of a byte step that has not stopped: the timer touch is its last write (R65). -/
def byteDone (s : State) : Result :=
  .next s.touch

/-- The registers' creation values (R128): all 0, `Start`. -/
def State.createRegisters (s : State) : State :=
  { s with
    state := .start
    pendingByte := 0
    declaredChannelCount := 0
    activeChannelCount := 0
    writeIndex := 0
    okIndicator := false
    alarm := .created s.cfg.alarm }

/-- Hardware reset of the decoder, `rst = 1`: creation and then Initialization in one step (R128). A
configuration that breaks R12 is refused (U6, U13; log entry 8). -/
def hardwareReset (s : State) : Result :=
  if s.cfg.ok then .next s.createRegisters.fullReset else .refused .badConfiguration

/-- Reset of stand-alone timer `k`: only `scheduledTime <- 0` (R128). It beats a `t_op` offered in the
same cycle and puts no bit `due` out (DESIGN CHOICE, log entry 21). -/
def timerReset (k : Nat) (s : State) : Result :=
  withTimer k s fun t =>
    if t.params.ok s.cfg.tw then .next (s.setTimer k (.created t.params))
    else .refused .badConfiguration

/-- The outputs of the last step leave the ports and join the trace (R140, R16). -/
def State.clearOut (s : State) : State :=
  { s with trace := s.trace ++ s.out, out := [] }

/-- An input is accepted: it leaves the queue, its sample is taken, and the last step's outputs leave
the ports. -/
def State.take (rest : List Input) (now : Nat) (s : State) : State :=
  { s with inputs := rest, now := now, trace := s.trace ++ s.out, out := [] }

end Sys2Proof.Machine
end

