-- ==== Sys2Proof/Machine/Control.lean ====
section
/-! DEFINITION. The one control operation (spec/70_reset_and_hazards.md R129). Hardware reset is in
Ops.lean. -/

namespace Sys2Proof.Machine

/-- `CTRL.INIT` (R129): `FullReset(coarsen(now))`, no `Error` event. -/
def execCtrlInit (s : State) : Result :=
  .next s.fullReset

end Sys2Proof.Machine
end

