-- ==== Sys2Proof/Machine/FrameDecoder.lean ====
section
/-! DEFINITION. The Frame Decoder's byte operations (spec/40_frame_decoder.md R62 to R80), one meaning
per row. Each is the whole byte step under its row: the store of the code (R63), the row's own rule,
the timer touch (R65). The decoder selects the row (spec/30_encoding.md R52); a meaning does not test
the `state` register again (log entry 16). -/

namespace Sys2Proof.Machine

/-- `PB.IGNORE` (R62): no register written, no event, timer not touched. -/
def execPbIgnore (_raw : Byte) (s : State) : Result :=
  .next s

/-- `START.MATCH`'s transition (R67), also the second half of a resynchronization. -/
def startMatched (s : State) : Result :=
  byteDone (s.goto .command)

/-- `FINISH.MATCH`'s rule (R79), also the end of `DATA.FULL`. -/
def finishMatched (s : State) : Result :=
  byteDone (s.accept.goto .start)

/-- A mismatch: `raise FrameError('M'); state <- Start` (R68, R70, R80). -/
def mismatched (s : State) : Result :=
  byteDone ((s.raise .mismatch).goto .start)

/-- `PB.RESYNC` (R64): the fault `'R'`, `state <- Start`, and then `START.MATCH` with the same code. -/
def execPbResync (_sss : DecoderState) (s : State) : Result :=
  startMatched (((s.storeByte s.cfg.startDelim).raise .resync).goto .start)

/-- `START.MATCH` (R67). -/
def execStartMatch (s : State) : Result :=
  startMatched (s.storeByte s.cfg.startDelim)

/-- `START.MISMATCH` (R68). -/
def execStartMismatch (ch : Byte) (s : State) : Result :=
  mismatched (s.storeByte ch)

/-- `COMMAND.MATCH` (R69). -/
def execCommandMatch (s : State) : Result :=
  byteDone ((s.storeByte s.cfg.sendCommand).goto .lowChannel)

/-- `COMMAND.MISMATCH` (R70). -/
def execCommandMismatch (ch : Byte) (s : State) : Result :=
  mismatched (s.storeByte ch)

/-- `LOW.STORE` (R71). -/
def execLowStore (ch : Byte) (s : State) : Result :=
  byteDone (((s.storeByte ch).setLowCount ch).goto .highChannel)

/-- `HIGH.ZERO` (R72, R73). -/
def execHighZero (ch : Byte) (s : State) : Result :=
  byteDone ((((s.storeByte ch).completeCount ch).raise .zero).abortHeader)

/-- `HIGH.CEIL` (R72, R74). -/
def execHighCeil (ch : Byte) (s : State) : Result :=
  byteDone ((((s.storeByte ch).completeCount ch).raise .ceiling).abortHeader)

/-- `HIGH.NEW` (R72, R75). -/
def execHighNew (ch : Byte) (s : State) : Result :=
  let d := highCount s.declaredChannelCount ch
  andThen (sinkConfigure d.toNat (((s.storeByte ch).completeCount ch).activate d))
    fun s => byteDone s.enterData

/-- `HIGH.SAME` (R72, R76). -/
def execHighSame (ch : Byte) (s : State) : Result :=
  byteDone ((s.storeByte ch).completeCount ch).enterData

/-- `DATA.WRITE` (R77): the index is `writeIndex` before the increment (R85). -/
def execDataWrite (ch : Byte) (s : State) : Result :=
  andThen (memWrite s.writeIndex.toNat ch (s.storeByte ch))
    fun s => byteDone (s.stepIndex.goto .data)

/-- `DATA.FULL` (R78): `state <- Finish`, then R79 or R80 with the same code, in the same step. -/
def execDataFull (ch : Byte) (s : State) : Result :=
  let s := (s.storeByte ch).goto .finish
  if ch = s.cfg.finishDelim then finishMatched s else mismatched s

/-- `FINISH.MATCH` (R79). -/
def execFinishMatch (s : State) : Result :=
  finishMatched (s.storeByte s.cfg.finishDelim)

/-- `FINISH.MISMATCH` (R80). -/
def execFinishMismatch (ch : Byte) (s : State) : Result :=
  mismatched (s.storeByte ch)

end Sys2Proof.Machine
end

