-- ==== Sys2Proof/Machine/Timer.lean ====
section
/-! DEFINITION. The operations of a stand-alone Alarm Timer (spec/41_alarm_timer.md R91 to R97). Each
writes the instance as its rule says and puts the bit `due` out. -/

namespace Sys2Proof.Machine

/-- `T.NOP` (R96). -/
def execTNop (k : Nat) (s : State) : Result :=
  withTimer k s fun t => .next (s.timerDone k t false)

/-- `T.SET` (R91). -/
def execTSet (k duration : Nat) (s : State) : Result :=
  withTimer k s fun t => .next (s.timerDone k (t.set s.cfg.tw s.now duration) false)

/-- `T.RESET` (R92). -/
def execTReset (k : Nat) (s : State) : Result :=
  withTimer k s fun t => .next (s.timerDone k (t.rebase s.cfg.tw s.now) false)

/-- `T.DUEBY` (R93): no register is written. -/
def execTDueBy (k extra : Nat) (s : State) : Result :=
  withTimer k s fun t => .next (s.timerDone k t (t.dueBy s.cfg.tw s.now extra))

/-- `T.WAIT` (R94). -/
def execTWait (k duration : Nat) (s : State) : Result :=
  withTimer k s fun t =>
    if t.dueBy s.cfg.tw s.now duration then .next (s.timerDone k (t.rebase s.cfg.tw s.now) true)
    else .next (s.timerDone k t false)

/-- `T.REPEAT` (R95). -/
def execTRepeat (k duration : Nat) (s : State) : Result :=
  withTimer k s fun t =>
    if t.dueBy s.cfg.tw s.now duration then .next (s.timerDone k (t.advance duration) true)
    else .next (s.timerDone k t false)

/-- `T.RESERVED` (R97, decision D14; log entry 11): `scheduledTime` unchanged, `t_due = 0`. -/
def execTReserved (k : Nat) (_x : Bool) (s : State) : Result :=
  withTimer k s fun t => .next (s.timerDone k t false)

end Sys2Proof.Machine
end

