-- ==== Sys2Proof/Machine/UnitHelper.lean ====
section
/-! DEFINITION. The unit helpers (spec/41_alarm_timer.md R122, R98 to R102): pure functions whose
result is the operand put out (log entry 9). -/

namespace Sys2Proof.Machine

/-- `W` and `S` of the timer a helper converts for. -/
def State.paramsOf (s : State) : TimerSel → Option TimerParams
  | .decoder => some s.alarm.params
  | .standalone k => (s.timers[k]?).map (·.params)

/-- R122: the product formed first, rounded up once; a result above the horizon is refused (U14). -/
def helper (factor : Nat) (sel : TimerSel) (t : Nat) (s : State) : Result :=
  match s.paramsOf sel with
  | none => .refused .noSuchTimer
  | some p =>
    if up p.s (t * factor * s.cfg.ticksPerMs) ≤ horizon p.w then
      .next (s.emit (.operand (up p.s (t * factor * s.cfg.ticksPerMs))))
    else .refused .aboveHorizon

/-- `U.MS` (R98). -/
def execUMs (sel : TimerSel) (t : Nat) (s : State) : Result :=
  helper 1 sel t s

/-- `U.SECONDS` (R99). -/
def execUSeconds (sel : TimerSel) (t : Nat) (s : State) : Result :=
  helper msPerSecond sel t s

/-- `U.MINUTES` (R100). -/
def execUMinutes (sel : TimerSel) (t : Nat) (s : State) : Result :=
  helper msPerMinute sel t s

/-- `U.HOURS` (R101). -/
def execUHours (sel : TimerSel) (t : Nat) (s : State) : Result :=
  helper msPerHour sel t s

/-- `U.DAYS` (R102). -/
def execUDays (sel : TimerSel) (t : Nat) (s : State) : Result :=
  helper msPerDay sel t s

end Sys2Proof.Machine
end

