-- ==== Sys2Proof/Machine/Wire.lean ====
section
/-! DEFINITION. The whole byte step in one piece (spec/40_frame_decoder.md R83) and the whole frame,
`WIRE.FRAME` (spec/30_encoding.md R49, R50, R60). `processByte` is R83's own text, written apart from
the meanings of FrameDecoder.lean; that the two agree is a statement (R83: "where this and a single
rule seem to differ, the single rule is meant"). -/

namespace Sys2Proof.Machine

/-- R83's arm `Finish`. -/
def processFinish (ch : Byte) (s : State) : Result :=
  if ch = s.cfg.finishDelim then .next (s.accept.goto .start)
  else .next ((s.raise .mismatch).goto .start)

/-- R83's arm `HighChannel`, after `declaredChannelCount <- d'`. -/
def processHigh (d : BitVec 16) (s : State) : Result :=
  if d = 0 ∨ s.cfg.maxCeiling < d.toNat then
    .next (s.raise (if d = 0 then .zero else .ceiling)).abortHeader
  else if d.toNat ≠ s.activeChannelCount.toNat then
    andThen (sinkConfigure d.toNat (s.activate d)) fun s => .next s.enterData
  else .next s.enterData

/-- R83's `case state of`. -/
def processCase (ch : Byte) (s : State) : Result :=
  match s.state with
  | .start =>
    if ch = s.cfg.startDelim then .next (s.goto .command)
    else .next ((s.raise .mismatch).goto .start)
  | .command =>
    if ch = s.cfg.sendCommand then .next (s.goto .lowChannel)
    else .next ((s.raise .mismatch).goto .start)
  | .lowChannel => .next ((s.setLowCount ch).goto .highChannel)
  | .highChannel => processHigh (highCount s.declaredChannelCount ch) (s.completeCount ch)
  | .data =>
    if s.writeIndex < s.activeChannelCount then
      andThen (memWrite s.writeIndex.toNat ch s) fun s => .next s.stepIndex
    else processFinish ch (s.goto .finish)
  | .finish => processFinish ch s

/-- R83's resynchronization. -/
def processResync (ch : Byte) (s : State) : State :=
  if s.state ≠ .start ∧ ch = s.cfg.startDelim ∧ s.idleDue = true then
    (s.raise .resync).goto .start
  else s

/-- `ProcessByte(raw, now)` at the step's sample `s.now` (R83). -/
def processByte (raw : Byte) (s : State) : Result :=
  if raw < s.cfg.charBase then .next s
  else
    let ch := chOf s.cfg raw
    andThen (processCase ch (processResync ch (s.storeByte ch))) byteDone

/-- Codes delivered in order, all at the step's sample (R60). -/
def processCodes : List Byte → State → Result
  | [], s => .next s
  | raw :: rest, s => andThen (processByte raw s) (processCodes rest)

/-- `WIRE.FRAME` (R49, R50): the N + 5 codes of the frame, each one byte step, at one sample (R60; log
entry 12). -/
def execWireFrame (data : List Byte) (s : State) : Result :=
  processCodes (frameCodes s.cfg data) s

end Sys2Proof.Machine
end

