-- ==== Sys2Proof/Machine/Dispatch.lean ====
section
/-! DEFINITION. One arm per operation, each one call of its meaning. -/

namespace Sys2Proof.Machine

def exec (i : Instr) (s : State) : Host.Outcome State Fault Refusal :=
  match i with
  | .pbIgnore raw => Sys2Proof.Machine.execPbIgnore raw s
  | .pbResync sss => Sys2Proof.Machine.execPbResync sss s
  | .startMatch => Sys2Proof.Machine.execStartMatch s
  | .startMismatch ch => Sys2Proof.Machine.execStartMismatch ch s
  | .commandMatch => Sys2Proof.Machine.execCommandMatch s
  | .commandMismatch ch => Sys2Proof.Machine.execCommandMismatch ch s
  | .lowStore ch => Sys2Proof.Machine.execLowStore ch s
  | .highZero ch => Sys2Proof.Machine.execHighZero ch s
  | .highCeil ch => Sys2Proof.Machine.execHighCeil ch s
  | .highNew ch => Sys2Proof.Machine.execHighNew ch s
  | .highSame ch => Sys2Proof.Machine.execHighSame ch s
  | .dataWrite ch => Sys2Proof.Machine.execDataWrite ch s
  | .dataFull ch => Sys2Proof.Machine.execDataFull ch s
  | .finishMatch => Sys2Proof.Machine.execFinishMatch s
  | .finishMismatch ch => Sys2Proof.Machine.execFinishMismatch ch s
  | .ctrlInit => Sys2Proof.Machine.execCtrlInit s
  | .tNop k => Sys2Proof.Machine.execTNop k s
  | .tSet k duration => Sys2Proof.Machine.execTSet k duration s
  | .tReset k => Sys2Proof.Machine.execTReset k s
  | .tDueBy k extra => Sys2Proof.Machine.execTDueBy k extra s
  | .tWait k duration => Sys2Proof.Machine.execTWait k duration s
  | .tRepeat k duration => Sys2Proof.Machine.execTRepeat k duration s
  | .tReserved k x => Sys2Proof.Machine.execTReserved k x s
  | .uMs sel t => Sys2Proof.Machine.execUMs sel t s
  | .uSeconds sel t => Sys2Proof.Machine.execUSeconds sel t s
  | .uMinutes sel t => Sys2Proof.Machine.execUMinutes sel t s
  | .uHours sel t => Sys2Proof.Machine.execUHours sel t s
  | .uDays sel t => Sys2Proof.Machine.execUDays sel t s
  | .wireFrame data => Sys2Proof.Machine.execWireFrame data s

end Sys2Proof.Machine
end

