-- ==== Sys2Proof/Machine/Fetch.lean ====
section
/-! DEFINITION. Accepting the next input: which agent it is for, the word it offers (spec/30_encoding.md
R52 to R57), and the state in which its operation runs; and placing a word of the opcode table there. -/

namespace Sys2Proof.Machine

/-- `in_ready = !(rst or init)` (R31, decision D17). -/
def inReady (rst init : Bool) : Bool :=
  !(rst || init)

/-- The side conditions of R53 and R54 for a raw code, from the registers and the sample. -/
def State.sideOf (s : State) (raw : Byte) : Side :=
  ⟨s.idleDue, s.countClassOf (chOf s.cfg raw), s.full⟩

/-- The word a raw code offers in a state. -/
def State.codeWord (s : State) (raw : Byte) : Word :=
  .code (s.sideOf raw) s.state raw

/-- What the next input asks for, with the state in which it runs. -/
inductive Fetched where
  /-- nothing is offered (R121) -/
  | idle (s : State)
  /-- hardware reset of the decoder (R128) -/
  | reset (s : State)
  /-- reset of stand-alone timer `k` (R128) -/
  | timerReset (k : Nat) (s : State)
  /-- an operation, as the word to decode -/
  | word (w : Word) (s : State)
deriving DecidableEq, Repr

/-- The codes are one whole frame (R49). -/
def isFrame (cfg : Config) (codes : List Byte) : Bool :=
  (decodeFrame cfg codes).toOption.isSome

/-- One code offered at a sample, with neither strobe. -/
def byteInput (raw : Byte) (now : Nat) : Input :=
  .cycle false false true raw now

/-- A stream line: taken whole where it is one frame; else its first code now and the others, at the
same sample, next (R60). -/
def fetchLine (codes : List Byte) (now : Nat) (rest : List Input) (s : State) : Fetched :=
  match codes with
  | [] => .idle (s.take rest now)
  | raw :: more =>
    if isFrame s.cfg (raw :: more) then .word (.frame (raw :: more)) (s.take rest now)
    else
      let s := s.take (more.map (byteInput · now) ++ rest) now
      .word (s.codeWord raw) s

/-- A clock edge at the decoder's ports: `rst` beats `init`, `init` beats a byte, and a code offered
while `in_ready` is 0 is not consumed (R55, R111, decision D17; log entry 4). -/
def fetchCycle (rst init inValid : Bool) (inData : Byte) (s : State) : Fetched :=
  if rst then .reset s
  else if init then .word .init s
  else if inValid && inReady rst init then .word (s.codeWord inData) s
  else .idle s

/-- The next input accepted; with none offered the block is idle (R121). DESIGN CHOICE (log entry 21):
in a cycle with a stand-alone timer's `rst` its `t_op` is not performed, and no bit `due` is put out. -/
def fetch (s : State) : Fetched :=
  match s.inputs with
  | [] => .idle s.clearOut
  | .cycle rst init inValid inData now :: rest =>
    fetchCycle rst init inValid inData (s.take rest now)
  | .line codes now :: rest => fetchLine codes now rest s
  | .timer k rst tOp tArg now :: rest =>
    if rst then .timerReset k (s.take rest now) else .word (.timer k tOp tArg) (s.take rest now)
  | .ms sel t :: rest => .word (.ms sel t) (s.take rest s.now)
  | .seconds sel t :: rest => .word (.seconds sel t) (s.take rest s.now)
  | .minutes sel t :: rest => .word (.minutes sel t) (s.take rest s.now)
  | .hours sel t :: rest => .word (.hours sel t) (s.take rest s.now)
  | .days sel t :: rest => .word (.days sel t) (s.take rest s.now)

/-! ## Placing a word of the opcode table -/

/-- An input at the head of the queue. -/
def State.offer (i : Input) (s : State) : State :=
  { s with inputs := i :: s.inputs }

/-- A sample at which the decoder's idle timer is due, counted from its stamp in coarse ticks. -/
def State.dueSample (s : State) : Nat :=
  (s.alarm.scheduledTime.toNat + s.cfg.idleTimeout) <<< s.alarm.params.s

/-- What selects an operation by its dispatch key: the `state` register, and the registers the side
conditions read, as `tableSide` takes them. -/
def State.selectKey (st : DecoderState) (s : State) : State :=
  { s with state := st, declaredChannelCount := 0, activeChannelCount := 0, writeIndex := 0 }

/-- A word of the table as the next input, with what selects it. A word that is none leaves the state
as it is. -/
def placeWord (s : State) (nbits w : Nat) : State :=
  match tableWord nbits w with
  | some (.key st ch) =>
    (s.selectKey st).offer (byteInput (rawOf s.cfg ch) s.dueSample)
  | some .strobe => s.offer (.cycle false true false 0 s.now)
  | some (.timerOp tOp) => s.offer (.timer 0 false tOp 0 s.now)
  | some (.wire codes) => s.offer (.line codes s.now)
  | none => s

end Sys2Proof.Machine
end

