-- ==== Sys2Proof/Machine/Step.lean ====
section
/-! DEFINITION. One step: accept the next input, decode the word it offers, run the operation. -/

namespace Sys2Proof.Machine

/-- Decode a word and run the operation in the state given. -/
def runWord (w : Word) (s : State) : Host.Outcome State Fault Refusal :=
  match decode s.cfg w with
  | .ok i => exec i s
  | .error e => .refused (.undecodable e)

/-- One step of the block. -/
def step (s : State) : Host.Outcome State Fault Refusal :=
  match fetch s with
  | .idle s => .next s
  | .reset s => hardwareReset s
  | .timerReset k s => timerReset k s
  | .word w s => runWord w s

/-- The state with a word of the opcode table as its next input. -/
def State.withFetchWord (s : State) (nbits w : Nat) : State :=
  placeWord s nbits w

end Sys2Proof.Machine
end

