-- ==== Sys2Proof/Safety.lean ====
section
/-! DEFINITION. What the claims call a good state, a good run and the observation of a run. -/

namespace Sys2Proof.Machine

/-- Every listed channel exists: its index is below the sink's count. -/
def Sink.inRange (k : Sink) : Bool :=
  k.channels.all fun c => decide (c.1 < k.count)

/-- The invariant of R26, "`writeIndex ≤ activeChannelCount ≤ 512` at all times", with what the model
adds to it: the sink's count is the active count (R24), the staged bytes are in canonical form and
inside the count (R37), and the timers are the configured ones (R11, R29). -/
def State.Inv (s : State) : Prop :=
  s.writeIndex.toNat ≤ s.activeChannelCount.toNat ∧
  s.activeChannelCount.toNat ≤ 512 ∧
  s.sink.count = s.activeChannelCount.toNat ∧
  Memory.wf s.sink.channels = true ∧
  s.sink.inRange = true ∧
  s.alarm.params = s.cfg.alarm ∧
  s.timers.map (·.params) = s.cfg.timers

/-- The observation of a run up to a state: the events of all its steps, in order (R16). -/
def State.observed (s : State) : List Event :=
  s.trace ++ s.out

/-- The states the machine can come to from a state by steps that answer a next state, with inputs
offered in between (R131). -/
inductive Reaches (s : State) : State → Prop where
  | here : Reaches s s
  | offered {t : State} (inputs : List Input) : Reaches s t →
      Reaches s { t with inputs := t.inputs ++ inputs }
  | stepped {t u : State} : Reaches s t → step t = .next u → Reaches s u

/-- Every stand-alone timer an input names exists. -/
def Input.addresses (cfg : Config) : Input → Bool
  | .cycle .. => true
  | .line .. => true
  | .timer k .. => cfg.hasTimer k
  | .ms sel _ => cfg.hasSel sel
  | .seconds sel _ => cfg.hasSel sel
  | .minutes sel _ => cfg.hasSel sel
  | .hours sel _ => cfg.hasSel sel
  | .days sel _ => cfg.hasSel sel

/-- A decoder input: a clock edge at the decoder's ports or a stream line. -/
def Input.forDecoder : Input → Bool
  | .cycle .. => true
  | .line .. => true
  | _ => false

end Sys2Proof.Machine
end

