-- ==== Sys2Proof/Certificates/Slice0/Obligations.lean ====
section
/-! DEFINITION. The statements for the provers, from the numbered rules of spec/. The small
definitions in `Sys2Proof.Claims` say a rule's own words where a statement needs them. A statement
gives an operation's whole next state as an update of the state before, so what the update does not
name is unchanged. -/

namespace Sys2Proof.Claims

open Machine

/-- The decoder's timer stamped with the step's sample: `scheduledTime <- coarsen(now)` (R65). -/
def stamp (s : State) : AlarmTimer :=
  ⟨s.alarm.params, coarsen s.cfg.tw s.alarm.params s.now⟩

/-- What `raise FrameError(tag)` leaves: R109 with the default hook, R110 with the notify-only one. -/
def afterFault (tag : FaultTag) (s : State) : State :=
  match s.cfg.errHook with
  | .default =>
    { s with
      out := s.out ++ [.error tag, .sinkCfg 0], state := .start, activeChannelCount := 0,
      writeIndex := 0, okIndicator := false, sink := ⟨0, []⟩, alarm := stamp s }
  | .notifyOnly => { s with out := s.out ++ [.error tag] }

/-- A raw code that stage 3 dispatches in the state `st`: not ignored, and no resynchronization
(R52). -/
def AtStage3 (cfg : Config) (side : Side) (st : DecoderState) (raw : Byte) : Prop :=
  cfg.charBase ≤ raw ∧ ¬ (st ≠ .start ∧ chOf cfg raw = cfg.startDelim ∧ side.due = true)

/-- The condition of each byte row: R54's two rows and R53's table, the rows above a row in its state
failing. -/
def RowSelected (cfg : Config) (side : Side) (st : DecoderState) (raw : Byte) : Instr → Prop
  | .pbIgnore r => raw < cfg.charBase ∧ r = raw
  | .pbResync sss => cfg.charBase ≤ raw ∧ st ≠ .start ∧ chOf cfg raw = cfg.startDelim ∧
      side.due = true ∧ sss = st
  | .startMatch => AtStage3 cfg side st raw ∧ st = .start ∧ chOf cfg raw = cfg.startDelim
  | .startMismatch ch => AtStage3 cfg side st raw ∧ st = .start ∧ ch = chOf cfg raw ∧
      ch ≠ cfg.startDelim
  | .commandMatch => AtStage3 cfg side st raw ∧ st = .command ∧ chOf cfg raw = cfg.sendCommand
  | .commandMismatch ch => AtStage3 cfg side st raw ∧ st = .command ∧ ch = chOf cfg raw ∧
      ch ≠ cfg.sendCommand
  | .lowStore ch => AtStage3 cfg side st raw ∧ st = .lowChannel ∧ ch = chOf cfg raw
  | .highZero ch => AtStage3 cfg side st raw ∧ st = .highChannel ∧ ch = chOf cfg raw ∧
      side.count = .zero
  | .highCeil ch => AtStage3 cfg side st raw ∧ st = .highChannel ∧ ch = chOf cfg raw ∧
      side.count = .ceil
  | .highNew ch => AtStage3 cfg side st raw ∧ st = .highChannel ∧ ch = chOf cfg raw ∧
      side.count = .new
  | .highSame ch => AtStage3 cfg side st raw ∧ st = .highChannel ∧ ch = chOf cfg raw ∧
      side.count = .same
  | .dataWrite ch => AtStage3 cfg side st raw ∧ st = .data ∧ ch = chOf cfg raw ∧ side.full = false
  | .dataFull ch => AtStage3 cfg side st raw ∧ st = .data ∧ ch = chOf cfg raw ∧ side.full = true
  | .finishMatch => AtStage3 cfg side st raw ∧ st = .finish ∧ chOf cfg raw = cfg.finishDelim
  | .finishMismatch ch => AtStage3 cfg side st raw ∧ st = .finish ∧ ch = chOf cfg raw ∧
      ch ≠ cfg.finishDelim
  | _ => False

/-- `match` and `mask` of the rows of spec/opcode_table.json over the dispatch key. -/
def keyRow : Instr → Option (BitVec 11 × BitVec 11)
  | .pbResync _ => some (0x07E, 0x0FF)
  | .startMatch => some (0x07E, 0x7FF)
  | .startMismatch _ => some (0x000, 0x700)
  | .commandMatch => some (0x106, 0x7FF)
  | .commandMismatch _ => some (0x100, 0x700)
  | .lowStore _ => some (0x200, 0x700)
  | .highZero _ => some (0x300, 0x700)
  | .highCeil _ => some (0x300, 0x700)
  | .highNew _ => some (0x300, 0x700)
  | .highSame _ => some (0x300, 0x700)
  | .dataWrite _ => some (0x400, 0x700)
  | .dataFull _ => some (0x400, 0x700)
  | .finishMatch => some (0x5E7, 0x7FF)
  | .finishMismatch _ => some (0x500, 0x700)
  | _ => none

/-- The completed count of R72. -/
def completed (s : State) (ch : Byte) : BitVec 16 :=
  s.declaredChannelCount + (ch.setWidth 16 <<< 8)

/-- What `HIGH.ZERO` and `HIGH.CEIL` leave before the timer touch (R73, R74). -/
def abortedHeader (tag : FaultTag) (ch : Byte) (s : State) : State :=
  let f := afterFault tag { s with pendingByte := ch, declaredChannelCount := completed s ch }
  match s.cfg.errHook with
  | .default => f
  | .notifyOnly => { f with writeIndex := 0, state := .data }

/-- The value of `state` after a byte step, by the rows of R82 and its last paragraph. -/
def stateAfter (s : State) (raw : Byte) : DecoderState :=
  let ch := chOf s.cfg raw
  let d := completed s ch
  if raw < s.cfg.charBase then s.state
  else if s.state ≠ .start ∧ ch = s.cfg.startDelim ∧ s.idleDue = true then .command
  else match s.state with
    | .start => if ch = s.cfg.startDelim then .command else .start
    | .command => if ch = s.cfg.sendCommand then .lowChannel else .start
    | .lowChannel => .highChannel
    | .highChannel =>
      if (1 ≤ d.toNat ∧ d.toNat ≤ s.cfg.maxCeiling) ∨ s.cfg.errHook = .notifyOnly then .data
      else .start
    | .data => if s.writeIndex < s.activeChannelCount then .data else .start
    | .finish => .start

/-- The event lists of R84. -/
def StepEvents (cfg : Config) (out : List Event) : Prop :=
  out = [] ∨ (∃ i v, out = [.sinkWrite i v]) ∨
  (∃ n, 1 ≤ n ∧ n ≤ 512 ∧ out = [.sinkCfg n]) ∨ out = [.accepted] ∨
  (∃ tag, cfg.errHook = .default ∧ out = [.error tag, .sinkCfg 0]) ∨
  (∃ tag, cfg.errHook = .notifyOnly ∧ out = [.error tag])

/-- The `SinkWrite` events of a frame's data, the first at index `i`. -/
def writesFrom (i : Nat) : List Byte → List Event
  | [] => []
  | v :: rest => .sinkWrite i v :: writesFrom (i + 1) rest

/-- The events of a full valid frame met in the state `s`: `Cfg(N)` if the count is new, the writes in
order, `OK`. -/
def frameEvents (s : State) (data : List Byte) : List Event :=
  (if data.length = s.activeChannelCount.toNat then [] else [.sinkCfg data.length]) ++
    writesFrom 0 data ++ [.accepted]

/-- Two outcomes of the same kind, the same refusal, or next states that `R` relates. -/
def Agree (R : State → State → Prop) : Result → Result → Prop
  | .next t, .next u => R t u
  | .fault f, .fault g => f = g
  | .refused r, .refused q => r = q
  | _, _ => False

/-- Equal but for `pendingByte`. -/
def SameButPending (t u : State) : Prop :=
  u = { t with pendingByte := u.pendingByte }

/-- Equal but for the bytes the sink holds. -/
def SameButChannels (t u : State) : Prop :=
  u = { t with sink := ⟨t.sink.count, u.sink.channels⟩ }

/-- Equal but for the stand-alone timers. -/
def SameButTimers (t u : State) : Prop :=
  u = { t with timers := u.timers }

/-- Equal but for the registers of the Frame Decoder, its timer and the sink. -/
def SameButDecoder (t u : State) : Prop :=
  u = { t with
    state := u.state, pendingByte := u.pendingByte, declaredChannelCount := u.declaredChannelCount,
    activeChannelCount := u.activeChannelCount, writeIndex := u.writeIndex,
    okIndicator := u.okIndicator, alarm := u.alarm, sink := u.sink }

/-- No start delimiter among codes with samples of their own meets the idle timer due, the code before
the first one having arrived at the sample `last`: R64's test fails on each of them. -/
def NoResync (cfg : Config) (last : Nat) : List (Byte × Nat) → Prop
  | [] => True
  | (raw, now) :: rest =>
    (chOf cfg raw = cfg.startDelim →
      dueBy (coarsen cfg.tw cfg.alarm now) (coarsen cfg.tw cfg.alarm last)
        (BitVec.ofNat cfg.alarm.w cfg.idleTimeout) = false) ∧
    NoResync cfg now rest

/-- The sample of the last of some codes, or of the code before them. -/
def lastSample (last : Nat) : List (Byte × Nat) → Nat
  | [] => last
  | (_, now) :: rest => lastSample now rest

/-- What a full valid frame leaves in `t`, begun in `s` and ended at the sample `now`: the registers, the
sink's bytes, and everything else but the inputs and the events as it was (R49, R85). -/
def FrameStored (s t : State) (data : List Byte) (now : Nat) : Prop :=
  t.state = .start ∧ t.okIndicator = true ∧ t.activeChannelCount.toNat = data.length ∧
  t.writeIndex.toNat = data.length ∧ t.declaredChannelCount.toNat = data.length ∧
  t.pendingByte = s.cfg.finishDelim ∧
  t.alarm = ⟨s.alarm.params, coarsen s.cfg.tw s.alarm.params now⟩ ∧ t.sink.count = data.length ∧
  (∀ a, t.channel a = data[a]?) ∧ t.cfg = s.cfg ∧ t.timers = s.timers ∧ t.now = now

/-- Calls of `repeat(duration)` on timer `k` at the samples listed, one after another. -/
def repeatAt (k duration : Nat) : List Nat → State → Result
  | [], s => .next s
  | n :: rest, s => andThen (exec (.tRepeat k duration) { s with now := n }) (repeatAt k duration rest)

/-- `k` steps of the machine, one after another. -/
def steps : Nat → State → Result
  | 0, s => .next s
  | k + 1, s => andThen (step s) (steps k)

/-- The registers of the Frame Decoder, its timer and the sink are the same. -/
def SameDecoder (s t : State) : Prop :=
  t.cfg = s.cfg ∧ t.state = s.state ∧ t.pendingByte = s.pendingByte ∧
  t.declaredChannelCount = s.declaredChannelCount ∧
  t.activeChannelCount = s.activeChannelCount ∧ t.writeIndex = s.writeIndex ∧
  t.okIndicator = s.okIndicator ∧ t.alarm = s.alarm ∧ t.sink = s.sink

end Sys2Proof.Claims

open Sys2Proof Sys2Proof.Machine Sys2Proof.Claims

/-! ## Decoding and stepping -/

/-- A step runs the decoded operation (R52, R55, R56), in the state in which the input has left the
queue, its sample is taken and the last step's outputs have joined the trace (the queue and the trace
are the model's: log entries 4 and 6). A stream line that is no whole frame runs its first code and
leaves the others, in their order and at the same sample, as the next inputs (R60); an empty line
offers nothing. Two clauses are the model's choice: that a helper's call is a step of its own (log
entry 9), and that a line which is one whole frame runs as one operation at one sample (log entry
12). -/
def Obligations.StepRunsDecodedInstruction : Prop :=
  (∀ (s t : State) (w : Word) (i : Instr),
    fetch s = .word w t → decode t.cfg w = .ok i → step s = exec i t) ∧
  (∀ (s : State) (raw : Byte) (now : Nat) (rest : List Input),
    s.inputs = byteInput raw now :: rest →
    step s = exec (decodeCode s.cfg ((s.take rest now).sideOf raw) s.state raw) (s.take rest now)) ∧
  (∀ (s : State) (v : Bool) (d : Byte) (now : Nat) (rest : List Input),
    s.inputs = .cycle false true v d now :: rest → step s = exec .ctrlInit (s.take rest now)) ∧
  (∀ (s : State) (k : Nat) (tOp : BitVec 3) (tArg now : Nat) (rest : List Input),
    s.inputs = .timer k false tOp tArg now :: rest →
    step s = exec (decodeTimer k tOp tArg) (s.take rest now)) ∧
  (∀ (s : State) (sel : TimerSel) (t : Nat) (rest : List Input),
    (s.inputs = .ms sel t :: rest → step s = exec (.uMs sel t) (s.take rest s.now)) ∧
    (s.inputs = .seconds sel t :: rest → step s = exec (.uSeconds sel t) (s.take rest s.now)) ∧
    (s.inputs = .minutes sel t :: rest → step s = exec (.uMinutes sel t) (s.take rest s.now)) ∧
    (s.inputs = .hours sel t :: rest → step s = exec (.uHours sel t) (s.take rest s.now)) ∧
    (s.inputs = .days sel t :: rest → step s = exec (.uDays sel t) (s.take rest s.now))) ∧
  (∀ (s : State) (codes : List Byte) (i : Instr) (now : Nat) (rest : List Input),
    s.inputs = .line codes now :: rest → decodeFrame s.cfg codes = .ok i →
    step s = exec i (s.take rest now)) ∧
  (∀ (s : State) (raw : Byte) (more : List Byte) (now : Nat) (rest : List Input),
    s.inputs = .line (raw :: more) now :: rest →
    (∀ i, decodeFrame s.cfg (raw :: more) ≠ .ok i) →
    let u := s.take (more.map (byteInput · now) ++ rest) now
    step s = exec (decodeCode s.cfg (u.sideOf raw) s.state raw) u) ∧
  (∀ (s : State) (now : Nat) (rest : List Input),
    s.inputs = .line [] now :: rest → step s = .next (s.take rest now))

/-- Nothing offered, nothing done (R121): only the output pulses end. -/
def Obligations.NoInputIsAnIdleStep : Prop :=
  (∀ s : State, s.inputs = [] → step s = .next { s with trace := s.trace ++ s.out, out := [] }) ∧
  (∀ (s : State) (d : Byte) (now : Nat) (rest : List Input),
    s.inputs = .cycle false false false d now :: rest → step s = .next (s.take rest now))

/-- `rst` beats `init`, `init` beats a byte, and the byte offered with a strobe is not consumed (R111,
R55, decision D17): the step does not depend on what is offered beside the strobe. -/
def Obligations.StrobesBeatBytes : Prop :=
  ∀ (s : State) (init v : Bool) (d : Byte) (now : Nat) (rest : List Input),
    (s.inputs = .cycle true init v d now :: rest →
      step s = hardwareReset (s.take rest now)) ∧
    (s.inputs = .cycle false true v d now :: rest →
      step s = .next (s.take rest now).fullReset)

/-- A few words of the table, written out. Their bits are those of R53, R55 and R56; how a number and
a width are read as one of the three kinds of key, with timer 0, operand 0 and the side conditions of
`tableSide`, is the model's choice (log entry 13). -/
def Obligations.DecodesWordsOfTheTable : Prop :=
  decodeTableWord 16 0x07E = some .startMatch ∧
  decodeTableWord 16 0x106 = some .commandMatch ∧
  decodeTableWord 16 0x2A5 = some (.lowStore 0xA5) ∧
  decodeTableWord 16 0x5E7 = some .finishMatch ∧
  decodeTableWord 8 0b011 = some (.tDueBy 0 0) ∧
  decodeTableWord 8 0b101 = some (.tRepeat 0 0) ∧
  decodeTableWord 1 1 = some .ctrlInit

/-- Decode and encode agree, for every well-formed operation of every family in every configuration
that meets its constraints. -/
def Obligations.DecodeOfEncodeIsTheInstruction : Prop :=
  ∀ (cfg : Config) (i : Instr), cfg.ok = true → i.wf cfg = true →
    decode cfg (encode cfg i) = .ok i

/-- The decoder takes a code's row exactly by the conditions of R52 to R54: the rows of a state
exclude each other and are exhaustive. -/
def Obligations.DispatchIsTheTable : Prop :=
  ∀ (cfg : Config) (side : Side) (st : DecoderState) (raw : Byte) (i : Instr),
    decode cfg (.code side st raw) = .ok i ↔ RowSelected cfg side st raw i

/-- In the standard configuration the key of a selected row meets the row's `match` and `mask`. -/
def Obligations.SelectedKeyMeetsMatchAndMask : Prop :=
  ∀ (side : Side) (st : DecoderState) (raw : Byte) (i : Instr) (m k : BitVec 11),
    decode .standard (.code side st raw) = .ok i → keyRow i = some (m, k) →
    dispatchKey st (chOf .standard raw) &&& k = m

/-- A header's two length bytes give `lengthLow + 256 * lengthHigh` (R41), through the two rows that
read them. -/
def Obligations.CountIsLittleEndian : Prop :=
  ∀ (lo hi : Byte) (s t u : State), exec (.lowStore lo) s = .next t →
    (exec (.highZero hi) t = .next u ∨ exec (.highCeil hi) t = .next u ∨
      exec (.highNew hi) t = .next u ∨ exec (.highSame hi) t = .next u) →
    u.declaredChannelCount.toNat = lo.toNat + 256 * hi.toNat

/-! ## Reset and Initialization -/

/-- Hardware reset (R128): creation and Initialization in one step, one event, no byte accepted; a
stand-alone timer's reset only clears its `scheduledTime`. That a `t_op` offered beside a stand-alone
timer's `rst` is not performed, and that no bit `due` is put out then, is the model's choice (log
entry 21): no rule ranks the two. -/
def Obligations.HardwareResetCreatesAndInitializes : Prop :=
  (∀ (s : State) (init v : Bool) (d : Byte) (now : Nat) (rest : List Input), s.cfg.ok = true →
    s.inputs = .cycle true init v d now :: rest →
    step s = .next
      { s with
        state := .start, pendingByte := 0, declaredChannelCount := 0, activeChannelCount := 0,
        writeIndex := 0, okIndicator := false,
        alarm := ⟨s.cfg.alarm, coarsen s.cfg.tw s.cfg.alarm now⟩, sink := ⟨0, []⟩,
        inputs := rest, now := now, trace := s.trace ++ s.out, out := [.sinkCfg 0] }) ∧
  (∀ (s : State) (k : Nat) (t : AlarmTimer) (tOp : BitVec 3) (tArg now : Nat) (rest : List Input),
    s.timers[k]? = some t → t.params.ok s.cfg.tw = true →
    s.inputs = .timer k true tOp tArg now :: rest →
    step s = .next
      { s with
        timers := s.timers.set k ⟨t.params, 0⟩,
        inputs := rest, now := now, trace := s.trace ++ s.out, out := [] })

/-- A configuration that breaks a constraint of R12 is refused at hardware reset (U6, U13). -/
def Obligations.BadConfigurationIsRefused : Prop :=
  ∀ (s : State) (init v : Bool) (d : Byte) (now : Nat) (rest : List Input), s.cfg.ok = false →
    s.inputs = .cycle true init v d now :: rest → step s = .refused .badConfiguration

/-- The values the spec gives after reset (R35), at the sample 0 that the model chose (log entry 2). -/
def Obligations.ResetStateValues : Prop :=
  State.reset.state = .start ∧ State.reset.activeChannelCount = 0 ∧
  State.reset.okIndicator = false ∧ State.reset.writeIndex = 0 ∧
  State.reset.declaredChannelCount = 0 ∧ State.reset.pendingByte = 0 ∧
  State.reset.alarm.scheduledTime.toNat = (coarsen 32 ⟨16, 0⟩ 0).toNat ∧
  State.reset.out = [.sinkCfg 0] ∧
  (∀ t ∈ State.reset.timers, t.scheduledTime.toNat = 0) ∧
  State.reset.cfg = .standard

/-- The invariant holds at reset. -/
def Obligations.ResetStateIsGood : Prop :=
  State.reset.Inv

/-- `FullReset(c)` (R127): its six writes and its event, and nothing else. -/
def Obligations.FullResetWritesItsList : Prop :=
  ∀ s : State, s.fullReset =
    { s with
      activeChannelCount := 0, sink := ⟨0, []⟩, out := s.out ++ [.sinkCfg 0], alarm := stamp s,
      okIndicator := false, state := .start, writeIndex := 0 }

/-- `CTRL.INIT` (R129): selected by `init = 1`, `rst = 0`; the full reset in any state, with `Cfg(0)`
and no `Error`; what the full reset does not list is unchanged. -/
def Obligations.InitIsTheFullReset : Prop :=
  (∀ (s : State) (v : Bool) (d : Byte) (now : Nat) (rest : List Input),
    s.inputs = .cycle false true v d now :: rest → step s = exec .ctrlInit (s.take rest now)) ∧
  (∀ s : State, exec .ctrlInit s = .next
    { s with
      activeChannelCount := 0, sink := ⟨0, []⟩, out := s.out ++ [.sinkCfg 0], alarm := stamp s,
      okIndicator := false, state := .start, writeIndex := 0 })

/-! ## Frame faults -/

/-- Taking a frame fault with the default hook (R109): the event, then the full reset; and with the
notify-only hook (R110): the event, and no register written. -/
def Obligations.FrameFaultEntry : Prop :=
  ∀ (tag : FaultTag) (s : State),
    (s.cfg.errHook = .default → s.raise tag =
      { s with
        out := s.out ++ [.error tag, .sinkCfg 0], state := .start, activeChannelCount := 0,
        writeIndex := 0, okIndicator := false, sink := ⟨0, []⟩, alarm := stamp s }) ∧
    (s.cfg.errHook = .notifyOnly → s.raise tag = { s with out := s.out ++ [.error tag] })

/-- With the default hook every fault of a byte step clears the channel configuration and says so to
the sink (R135, R112); the decoder is back in `Start`, or in `Command` after a resynchronization. -/
def Obligations.ErrorsClearTheConfiguration : Prop :=
  ∀ (s t : State) (raw : Byte) (now : Nat) (rest : List Input) (tag : FaultTag),
    s.cfg.errHook = .default → s.inputs = byteInput raw now :: rest → step s = .next t →
    .error tag ∈ t.out →
    t.activeChannelCount = 0 ∧ t.sink = ⟨0, []⟩ ∧ t.out = [.error tag, .sinkCfg 0] ∧
    t.okIndicator = false ∧ t.state = (if tag = .resync then .command else .start)

/-- With the notify-only hook a fault of a byte step keeps the channel count, the sink and the success
indicator (R110). -/
def Obligations.NotifyOnlyKeepsTheConfiguration : Prop :=
  ∀ (s t : State) (raw : Byte) (now : Nat) (rest : List Input) (tag : FaultTag),
    s.cfg.errHook = .notifyOnly → s.inputs = byteInput raw now :: rest → step s = .next t →
    .error tag ∈ t.out →
    t.activeChannelCount = s.activeChannelCount ∧ t.sink = s.sink ∧ t.out = [.error tag] ∧
    t.okIndicator = s.okIndicator

/-! ## The byte operations

Each gives the row's selection by the decoder and the operation's whole next state. -/

/-- `PB.IGNORE` and the offset (R62): a code below `CHAR_BASE` is ignored, with no register written, no
event, the timer not touched; at the step, only the input is gone and the pulses of the last step end.
From any other code the offset is subtracted, without a borrow. -/
def Obligations.IgnoredCodeChangesNothing : Prop :=
  (∀ (cfg : Config) (side : Side) (st : DecoderState) (raw : Byte),
    (decode cfg (.code side st raw) = .ok (.pbIgnore raw) ↔ raw < cfg.charBase) ∧
    (cfg.charBase ≤ raw → (chOf cfg raw).toNat = raw.toNat - cfg.charBase.toNat)) ∧
  (∀ (raw : Byte) (s : State), exec (.pbIgnore raw) s = .next s) ∧
  (∀ (s : State) (raw : Byte) (now : Nat) (rest : List Input), raw < s.cfg.charBase →
    s.inputs = byteInput raw now :: rest →
    step s = .next { s with inputs := rest, now := now, trace := s.trace ++ s.out, out := [] })

/-- `PB.RESYNC` (R64): the fault `'R'`, then the same code starts a new frame. -/
def Obligations.ResyncAbortsAndRestarts : Prop :=
  (∀ (cfg : Config) (side : Side) (st : DecoderState) (raw : Byte), cfg.charBase ≤ raw →
    st ≠ .start → chOf cfg raw = cfg.startDelim → side.due = true →
    decode cfg (.code side st raw) = .ok (.pbResync st)) ∧
  (∀ (sss : DecoderState) (s : State), exec (.pbResync sss) s = .next
    { afterFault .resync { s with pendingByte := s.cfg.startDelim } with
      state := .command, alarm := stamp s })

/-- The gap test of R64: with `g` the coarse ticks from the stamp to the sample, the idle timer is due
exactly when `(g - IDLE_TIMEOUT) mod 2^ALARM_W < 2^(ALARM_W-1)`. -/
def Obligations.ResyncTestIsTheGapFormula : Prop :=
  ∀ s : State, s.idleDue = true ↔
    (((coarsen s.cfg.tw s.alarm.params s.now - s.alarm.scheduledTime).toNat : Int) -
      (s.cfg.idleTimeout : Int)) % 2 ^ s.alarm.params.w < 2 ^ (s.alarm.params.w - 1)

/-- `START.MATCH` (R67) and `COMMAND.MATCH` (R69). -/
def Obligations.StartAndCommandMatchAdvance : Prop :=
  (∀ (cfg : Config) (side : Side) (raw : Byte), AtStage3 cfg side .start raw →
    chOf cfg raw = cfg.startDelim → decode cfg (.code side .start raw) = .ok .startMatch) ∧
  (∀ s : State, exec .startMatch s = .next
    { s with pendingByte := s.cfg.startDelim, state := .command, alarm := stamp s }) ∧
  (∀ (cfg : Config) (side : Side) (raw : Byte), AtStage3 cfg side .command raw →
    chOf cfg raw = cfg.sendCommand → decode cfg (.code side .command raw) = .ok .commandMatch) ∧
  (∀ s : State, exec .commandMatch s = .next
    { s with pendingByte := s.cfg.sendCommand, state := .lowChannel, alarm := stamp s })

/-- `START.MISMATCH` (R68), `COMMAND.MISMATCH` (R70) and `FINISH.MISMATCH` (R80): the fault `'M'`, and
`Start` under either hook; the code is consumed. -/
def Obligations.MismatchFaultsAndRestarts : Prop :=
  (∀ (cfg : Config) (side : Side) (raw : Byte), AtStage3 cfg side .start raw →
    chOf cfg raw ≠ cfg.startDelim →
    decode cfg (.code side .start raw) = .ok (.startMismatch (chOf cfg raw))) ∧
  (∀ (cfg : Config) (side : Side) (raw : Byte), AtStage3 cfg side .command raw →
    chOf cfg raw ≠ cfg.sendCommand →
    decode cfg (.code side .command raw) = .ok (.commandMismatch (chOf cfg raw))) ∧
  (∀ (cfg : Config) (side : Side) (raw : Byte), AtStage3 cfg side .finish raw →
    chOf cfg raw ≠ cfg.finishDelim →
    decode cfg (.code side .finish raw) = .ok (.finishMismatch (chOf cfg raw))) ∧
  (∀ (ch : Byte) (s : State),
    exec (.startMismatch ch) s = .next
      { afterFault .mismatch { s with pendingByte := ch } with state := .start, alarm := stamp s } ∧
    exec (.commandMismatch ch) s = .next
      { afterFault .mismatch { s with pendingByte := ch } with state := .start, alarm := stamp s } ∧
    exec (.finishMismatch ch) s = .next
      { afterFault .mismatch { s with pendingByte := ch } with state := .start, alarm := stamp s })

/-- `LOW.STORE` (R71). -/
def Obligations.LowStoreKeepsTheLowByte : Prop :=
  (∀ (cfg : Config) (side : Side) (raw : Byte), AtStage3 cfg side .lowChannel raw →
    decode cfg (.code side .lowChannel raw) = .ok (.lowStore (chOf cfg raw))) ∧
  (∀ (ch : Byte) (s : State), exec (.lowStore ch) s = .next
    { s with
      pendingByte := ch, declaredChannelCount := ch.setWidth 16, state := .highChannel,
      alarm := stamp s })

/-- `HIGH.ZERO` (R73): the zero test comes first, whatever the active count; the fault `'0'`; the
default hook's reset stands, the notify-only hook goes on to `Data`. -/
def Obligations.ZeroHeaderAborts : Prop :=
  (∀ (s : State) (raw : Byte), AtStage3 s.cfg (s.sideOf raw) .highChannel raw →
    completed s (chOf s.cfg raw) = 0 →
    decode s.cfg (.code (s.sideOf raw) .highChannel raw) = .ok (.highZero (chOf s.cfg raw))) ∧
  (∀ (ch : Byte) (s : State),
    exec (.highZero ch) s = .next { abortedHeader .zero ch s with alarm := stamp s })

/-- `HIGH.CEIL` (R74): strictly above the ceiling; the fault `'C'`. -/
def Obligations.OverCeilingHeaderAborts : Prop :=
  (∀ (s : State) (raw : Byte), AtStage3 s.cfg (s.sideOf raw) .highChannel raw →
    completed s (chOf s.cfg raw) ≠ 0 → s.cfg.maxCeiling < (completed s (chOf s.cfg raw)).toNat →
    decode s.cfg (.code (s.sideOf raw) .highChannel raw) = .ok (.highCeil (chOf s.cfg raw))) ∧
  (∀ (ch : Byte) (s : State),
    exec (.highCeil ch) s = .next { abortedHeader .ceiling ch s with alarm := stamp s })

/-- `HIGH.NEW` (R75): the active count, the sink's count and `writeIndex` are set for the new count.
That no byte is staged in the sink after it is the model's representation of the "any value" of R39 and
D21 (log entry 5), and does not say that the channels are cleared. A count above 512, which the ceiling
keeps out, is refused at the sink (U5, log entry 7). -/
def Obligations.NewCountReconfigures : Prop :=
  (∀ (s : State) (raw : Byte), AtStage3 s.cfg (s.sideOf raw) .highChannel raw →
    1 ≤ (completed s (chOf s.cfg raw)).toNat →
    (completed s (chOf s.cfg raw)).toNat ≤ s.cfg.maxCeiling →
    (completed s (chOf s.cfg raw)).toNat ≠ s.activeChannelCount.toNat →
    decode s.cfg (.code (s.sideOf raw) .highChannel raw) = .ok (.highNew (chOf s.cfg raw))) ∧
  (∀ (ch : Byte) (s : State), (completed s ch).toNat ≤ 512 →
    exec (.highNew ch) s = .next
      { s with
        pendingByte := ch, declaredChannelCount := completed s ch,
        activeChannelCount := (completed s ch).setWidth 10,
        sink := ⟨(completed s ch).toNat, []⟩, out := s.out ++ [.sinkCfg (completed s ch).toNat],
        writeIndex := 0, state := .data, alarm := stamp s }) ∧
  (∀ (ch : Byte) (s : State), 512 < (completed s ch).toNat →
    exec (.highNew ch) s = .refused .sinkCount)

/-- `HIGH.SAME` (R76): no reconfiguration, no event. -/
def Obligations.SameCountKeepsTheSink : Prop :=
  (∀ (s : State) (raw : Byte), AtStage3 s.cfg (s.sideOf raw) .highChannel raw →
    completed s (chOf s.cfg raw) ≠ 0 →
    (completed s (chOf s.cfg raw)).toNat ≤ s.cfg.maxCeiling →
    (completed s (chOf s.cfg raw)).toNat = s.activeChannelCount.toNat →
    decode s.cfg (.code (s.sideOf raw) .highChannel raw) = .ok (.highSame (chOf s.cfg raw))) ∧
  (∀ (ch : Byte) (s : State), exec (.highSame ch) s = .next
    { s with
      pendingByte := ch, declaredChannelCount := completed s ch, writeIndex := 0, state := .data,
      alarm := stamp s })

/-- `DATA.WRITE` (R77, R85): the channel `writeIndex` holds the byte, no other channel changes, and
the index is incremented after the store. An index the sink does not have is refused (U5). -/
def Obligations.DataWriteStoresOneChannel : Prop :=
  (∀ (s : State) (raw : Byte), AtStage3 s.cfg (s.sideOf raw) .data raw →
    s.writeIndex < s.activeChannelCount →
    decode s.cfg (.code (s.sideOf raw) .data raw) = .ok (.dataWrite (chOf s.cfg raw))) ∧
  (∀ (ch : Byte) (s : State), s.writeIndex.toNat < s.sink.count →
    ∃ t, exec (.dataWrite ch) s = .next t ∧
      t = { s with
        pendingByte := ch, out := s.out ++ [.sinkWrite s.writeIndex.toNat ch],
        writeIndex := s.writeIndex + 1, state := .data, alarm := stamp s, sink := t.sink } ∧
      t.sink.count = s.sink.count ∧ t.channel s.writeIndex.toNat = some ch ∧
      ∀ a, a ≠ s.writeIndex.toNat → t.channel a = s.channel a) ∧
  (∀ (ch : Byte) (s : State), s.sink.count ≤ s.writeIndex.toNat →
    exec (.dataWrite ch) s = .refused .sinkIndex)

/-- `DATA.FULL` (R78): the byte is the finish byte, in the same step; nothing is stored. -/
def Obligations.FullDataTakesTheFinishByte : Prop :=
  (∀ (s : State) (raw : Byte), AtStage3 s.cfg (s.sideOf raw) .data raw →
    s.writeIndex = s.activeChannelCount →
    decode s.cfg (.code (s.sideOf raw) .data raw) = .ok (.dataFull (chOf s.cfg raw))) ∧
  (∀ (ch : Byte) (s : State), ch = s.cfg.finishDelim →
    exec (.dataFull ch) s = .next
      { s with
        pendingByte := ch, out := s.out ++ [.accepted], okIndicator := true, state := .start,
        alarm := stamp s }) ∧
  (∀ (ch : Byte) (s : State), ch ≠ s.cfg.finishDelim →
    exec (.dataFull ch) s = .next
      { afterFault .mismatch { s with pendingByte := ch } with state := .start, alarm := stamp s })

/-- `FINISH.MATCH` with the success hook (R79, R113): under either error hook. -/
def Obligations.FinishMatchAccepts : Prop :=
  (∀ (cfg : Config) (side : Side) (raw : Byte), AtStage3 cfg side .finish raw →
    chOf cfg raw = cfg.finishDelim → decode cfg (.code side .finish raw) = .ok .finishMatch) ∧
  (∀ s : State, exec .finishMatch s = .next
    { s with
      pendingByte := s.cfg.finishDelim, out := s.out ++ [.accepted], okIndicator := true,
      state := .start, alarm := stamp s })

/-- What stores nothing leaves every channel, and the stand-alone timers: the rows that raise no fault
and configure nothing. -/
def Obligations.NonStoringRowsKeepEveryChannel : Prop :=
  ∀ (i : Instr) (s t : State) (ch : Byte) (raw : Byte),
    (i = .pbIgnore raw ∨ i = .startMatch ∨ i = .commandMatch ∨ i = .lowStore ch ∨
      i = .highSame ch ∨ i = .finishMatch) → exec i s = .next t →
    (∀ a, t.channel a = s.channel a) ∧ t.sink.count = s.sink.count ∧
    t.activeChannelCount = s.activeChannelCount ∧ t.timers = s.timers ∧ t.cfg = s.cfg

/-! ## The Alarm Timer -/

/-- The comparator (R90): `signed_W(e) >= 0` for `e = c -_W (sched +_W extra)`, "that is: e[W-1] == 0,
that is: e < 2^(W-1)". -/
def Obligations.ComparatorIsTheTopBit : Prop :=
  ∀ (w : Nat) (c sched extra : BitVec w),
    (dueBy c sched extra = true ↔ 0 ≤ (c - (sched + extra)).toInt) ∧
    (dueBy c sched extra = true ↔ (c - (sched + extra)).msb = false) ∧
    (dueBy c sched extra = true ↔ (c - (sched + extra)).toNat < 2 ^ (w - 1))

/-- The meaning of `due` (R103): a sample `k` ticks from the target, inside the window, is due exactly
when `k >= 0`. -/
def Obligations.DueMeansReachedInsideTheWindow : Prop :=
  ∀ (w : Nat) (sched extra : BitVec w) (k : Int), 0 < w →
    -(2 ^ (w - 1)) ≤ k → k < 2 ^ (w - 1) →
    (dueBy (sched + extra + BitVec.ofInt w k) sched extra = true ↔ 0 ≤ k)

/-- `coarsen` (R88): the `S` low bits dropped, the next `W` kept; and with `W + S <= TW` the coarse
value counts modulo `2^W` across a wrap of the source. -/
def Obligations.CoarsenKeepsCounting : Prop :=
  ∀ (tw now : Nat) (p : TimerParams),
    (coarsen tw p now).toNat = (now % 2 ^ tw) / 2 ^ p.s % 2 ^ p.w ∧
    (p.w + p.s ≤ tw → coarsen tw p (now + 2 ^ p.s) = coarsen tw p now + 1)

/-- `T.NOP` (R96) and the reserved codes (R97, decision D14; that they run is the model's choice, log
entry 11): the register unchanged, `t_due = 0`. -/
def Obligations.NopAndReservedWriteNothing : Prop :=
  (∀ k tArg : Nat, decodeTimer k 0b000 tArg = .tNop k ∧ decodeTimer k 0b110 tArg = .tReserved k false ∧
    decodeTimer k 0b111 tArg = .tReserved k true) ∧
  ∀ (k : Nat) (x : Bool) (s : State) (t : AlarmTimer), s.timers[k]? = some t →
    exec (.tNop k) s = .next { s with out := s.out ++ [.due k false] } ∧
    exec (.tReserved k x) s = .next { s with out := s.out ++ [.due k false] }

/-- `T.SET` (R91) and `T.RESET` (R92). -/
def Obligations.SetAndResetWriteTheSchedule : Prop :=
  (∀ k tArg : Nat, decodeTimer k 0b001 tArg = .tSet k tArg ∧ decodeTimer k 0b010 tArg = .tReset k) ∧
  ∀ (k duration : Nat) (s : State) (t : AlarmTimer), s.timers[k]? = some t →
    exec (.tSet k duration) s = .next
      { s with
        timers := s.timers.set k
          ⟨t.params, coarsen s.cfg.tw t.params s.now + BitVec.ofNat t.params.w duration⟩,
        out := s.out ++ [.due k false] } ∧
    exec (.tReset k) s = .next
      { s with
        timers := s.timers.set k ⟨t.params, coarsen s.cfg.tw t.params s.now⟩,
        out := s.out ++ [.due k false] }

/-- `T.DUEBY` (R93): the comparison, and no register written. -/
def Obligations.DueByOnlyCompares : Prop :=
  (∀ k tArg : Nat, decodeTimer k 0b011 tArg = .tDueBy k tArg) ∧
  ∀ (k extra : Nat) (s : State) (t : AlarmTimer), s.timers[k]? = some t →
    exec (.tDueBy k extra) s = .next
      { s with
        out := s.out ++ [.due k (dueBy (coarsen s.cfg.tw t.params s.now) t.scheduledTime
          (BitVec.ofNat t.params.w extra))] }

/-- `T.WAIT` (R94): due, rebased to the sample; not due, no register written. -/
def Obligations.WaitRebasesWhenDue : Prop :=
  (∀ k tArg : Nat, decodeTimer k 0b100 tArg = .tWait k tArg) ∧
  ∀ (k duration : Nat) (s : State) (t : AlarmTimer), s.timers[k]? = some t →
    (dueBy (coarsen s.cfg.tw t.params s.now) t.scheduledTime (BitVec.ofNat t.params.w duration) = true →
      exec (.tWait k duration) s = .next
        { s with
          timers := s.timers.set k ⟨t.params, coarsen s.cfg.tw t.params s.now⟩,
          out := s.out ++ [.due k true] }) ∧
    (dueBy (coarsen s.cfg.tw t.params s.now) t.scheduledTime (BitVec.ofNat t.params.w duration) = false →
      exec (.tWait k duration) s = .next { s with out := s.out ++ [.due k false] })

/-- `T.REPEAT` (R95): due, advanced by the duration from its own prior value; not due, no register
written. -/
def Obligations.RepeatAdvancesWhenDue : Prop :=
  (∀ k tArg : Nat, decodeTimer k 0b101 tArg = .tRepeat k tArg) ∧
  ∀ (k duration : Nat) (s : State) (t : AlarmTimer), s.timers[k]? = some t →
    (dueBy (coarsen s.cfg.tw t.params s.now) t.scheduledTime (BitVec.ofNat t.params.w duration) = true →
      exec (.tRepeat k duration) s = .next
        { s with
          timers := s.timers.set k
            ⟨t.params, t.scheduledTime + BitVec.ofNat t.params.w duration⟩,
          out := s.out ++ [.due k true] }) ∧
    (dueBy (coarsen s.cfg.tw t.params s.now) t.scheduledTime (BitVec.ofNat t.params.w duration) = false →
      exec (.tRepeat k duration) s = .next { s with out := s.out ++ [.due k false] })

/-- R105's first property: after `set(D)` with `D` at most the horizon, `dueBy(0)` at a later sample is
true exactly when `D` coarse ticks have elapsed, inside the window of R103. -/
def Obligations.SetIsDueAfterItsDuration : Prop :=
  ∀ (k d later : Nat) (s s' : State) (t : AlarmTimer), s.timers[k]? = some t → 0 < t.params.w →
    d ≤ horizon t.params.w → exec (.tSet k d) s = .next s' →
    (coarsen s.cfg.tw t.params later - coarsen s.cfg.tw t.params s.now).toNat
      < d + 2 ^ (t.params.w - 1) →
    exec (.tDueBy k 0) { s' with now := later } = .next
      { s' with
        now := later,
        out := s'.out ++ [.due k (decide (d ≤
          (coarsen s.cfg.tw t.params later - coarsen s.cfg.tw t.params s.now).toNat))] }

/-- R92's corner case: right after `reset()` a timer is due by 0 and by no `x` of 1 to `2^(W-1)`. -/
def Obligations.ResetTimerIsDueByNothingMore : Prop :=
  ∀ (t : AlarmTimer) (tw now x : Nat), 0 < t.params.w →
    (t.rebase tw now).dueBy tw now 0 = true ∧
    (1 ≤ x → x ≤ 2 ^ (t.params.w - 1) → (t.rebase tw now).dueBy tw now x = false)

/-- R105's second property: however late the calls, `repeat(D)` has advanced `scheduledTime` by exactly
`D` for each call that answered true. -/
def Obligations.RepeatNeverDrifts : Prop :=
  ∀ (k d : Nat) (samples : List Nat) (s s' : State) (t : AlarmTimer), s.timers[k]? = some t →
    repeatAt k d samples s = .next s' →
    ∃ (t' : AlarmTimer) (n : Nat), s'.timers[k]? = some t' ∧ t'.params = t.params ∧
      s'.out.count (.due k true) = s.out.count (.due k true) + n ∧
      t'.scheduledTime.toNat = (t.scheduledTime.toNat + n * d) % 2 ^ t.params.w

/-- Stand-alone timers and the decoder share nothing (R86). Neither writes the other: a decoder input
leaves every stand-alone timer, and a timer input leaves the decoder, the sink and every other timer.
Neither reads the other: a decoder input steps alike whatever the stand-alone timers are, and a timer
input steps alike whatever the decoder's registers, its timer, the sink and the other stand-alone timers
hold. -/
def Obligations.TimersAndDecoderAreIsolated : Prop :=
  (∀ (s t : State) (i : Input) (rest : List Input), s.inputs = i :: rest → i.forDecoder = true →
    step s = .next t → t.timers = s.timers) ∧
  (∀ (s t : State) (k : Nat) (r : Bool) (tOp : BitVec 3) (tArg now : Nat) (rest : List Input),
    s.inputs = .timer k r tOp tArg now :: rest → step s = .next t →
    SameDecoder s t ∧ ∀ j, j ≠ k → t.timers[j]? = s.timers[j]?) ∧
  (∀ (s : State) (ts : List AlarmTimer) (i : Input) (rest : List Input), s.inputs = i :: rest →
    i.forDecoder = true → Agree SameButTimers (step s) (step { s with timers := ts })) ∧
  (∀ (s u : State) (k : Nat) (r : Bool) (tOp : BitVec 3) (tArg now : Nat) (rest : List Input),
    s.inputs = .timer k r tOp tArg now :: rest → SameButDecoder s u →
    Agree SameButDecoder (step s) (step u)) ∧
  (∀ (s : State) (ts : List AlarmTimer) (k : Nat) (r : Bool) (tOp : BitVec 3) (tArg now : Nat)
    (rest : List Input), s.inputs = .timer k r tOp tArg now :: rest → ts[k]? = s.timers[k]? →
    Agree (fun t u => SameButTimers t u ∧ u.timers[k]? = t.timers[k]?) (step s)
      (step { s with timers := ts }))

/-! ## The unit helpers -/

/-- `up(x)` (R122) is the least number of coarse ticks that holds `x` source ticks: a duration is never
under-satisfied, in coarse ticks. -/
def Obligations.RoundUpIsNeverUnder : Prop :=
  ∀ s x : Nat, x ≤ up s x * 2 ^ s ∧ ∀ n, x ≤ n * 2 ^ s → up s x ≤ n

/-- The helpers of R98 to R102: the product first, rounded up once; the operand is put out and no
register is written. -/
def Obligations.HelpersPutTheOperandOut : Prop :=
  ∀ (sel : TimerSel) (t : Nat) (s : State) (p : TimerParams), s.paramsOf sel = some p →
    (up p.s (t * s.cfg.ticksPerMs) ≤ horizon p.w → exec (.uMs sel t) s = .next
      { s with out := s.out ++ [.operand (up p.s (t * s.cfg.ticksPerMs))] }) ∧
    (up p.s (t * 1000 * s.cfg.ticksPerMs) ≤ horizon p.w → exec (.uSeconds sel t) s = .next
      { s with out := s.out ++ [.operand (up p.s (t * 1000 * s.cfg.ticksPerMs))] }) ∧
    (up p.s (t * 60000 * s.cfg.ticksPerMs) ≤ horizon p.w → exec (.uMinutes sel t) s = .next
      { s with out := s.out ++ [.operand (up p.s (t * 60000 * s.cfg.ticksPerMs))] }) ∧
    (up p.s (t * 3600000 * s.cfg.ticksPerMs) ≤ horizon p.w → exec (.uHours sel t) s = .next
      { s with out := s.out ++ [.operand (up p.s (t * 3600000 * s.cfg.ticksPerMs))] }) ∧
    (up p.s (t * 86400000 * s.cfg.ticksPerMs) ≤ horizon p.w → exec (.uDays sel t) s = .next
      { s with out := s.out ++ [.operand (up p.s (t * 86400000 * s.cfg.ticksPerMs))] })

/-- A helper's result above the horizon is refused, not truncated (R122, decision D22). -/
def Obligations.HelpersRefuseAboveTheHorizon : Prop :=
  ∀ (sel : TimerSel) (t : Nat) (s : State) (p : TimerParams), s.paramsOf sel = some p →
    (horizon p.w < up p.s (t * s.cfg.ticksPerMs) →
      exec (.uMs sel t) s = .refused .aboveHorizon) ∧
    (horizon p.w < up p.s (t * 1000 * s.cfg.ticksPerMs) →
      exec (.uSeconds sel t) s = .refused .aboveHorizon) ∧
    (horizon p.w < up p.s (t * 60000 * s.cfg.ticksPerMs) →
      exec (.uMinutes sel t) s = .refused .aboveHorizon) ∧
    (horizon p.w < up p.s (t * 3600000 * s.cfg.ticksPerMs) →
      exec (.uHours sel t) s = .refused .aboveHorizon) ∧
    (horizon p.w < up p.s (t * 86400000 * s.cfg.ticksPerMs) →
      exec (.uDays sel t) s = .refused .aboveHorizon)

/-! ## The whole machine -/

/-- The invariant (R26 and what the model adds to it, `State.Inv`) is kept by every step, from every
state that has it, under either error hook. -/
def Obligations.StepKeepsTheInvariant : Prop :=
  ∀ s t : State, s.Inv → step s = .next t → t.Inv

/-- R26 along every run: from hardware reset of any configuration, with any inputs offered. -/
def Obligations.WriteIndexStaysBelowTheActiveCount : Prop :=
  ∀ s t u : State, hardwareReset s = .next t → s.timers.map (·.params) = s.cfg.timers →
    Reaches t u →
    u.writeIndex.toNat ≤ u.activeChannelCount.toNat ∧ u.activeChannelCount.toNat ≤ 512

/-- Every step is total (R106): from a good state of a configuration that meets its constraints, the
decoder's inputs and the timers' never stop the machine. -/
def Obligations.NoFaultStopsTheMachine : Prop :=
  (∀ (s : State) (i : Input) (rest : List Input), s.Inv → s.cfg.ok = true →
    s.inputs = i :: rest → i.forDecoder = true → ∃ t, step s = .next t) ∧
  (∀ (s : State) (k : Nat) (r : Bool) (tOp : BitVec 3) (tArg now : Nat) (rest : List Input),
    s.Inv → s.cfg.ok = true → s.inputs = .timer k r tOp tArg now :: rest →
    s.cfg.hasTimer k = true → ∃ t, step s = .next t)

/-- The dispatch into single rules and the step in one piece agree (R83), on every state. -/
def Obligations.ByteStepIsOnePiece : Prop :=
  ∀ (s : State) (raw : Byte),
    exec (decodeCode s.cfg (s.sideOf raw) s.state raw) s = processByte raw s

/-- A whole frame in one operation is its N + 5 codes, each a step of its own at the same sample (R49,
R60), from every good state, in mid-frame too: the same registers, sink and observed events. -/
def Obligations.WholeFrameIsItsCodes : Prop :=
  ∀ (s : State) (data : List Byte) (now : Nat) (rest : List Input), s.Inv → s.cfg.ok = true →
    s.cfg.frameOk data = true →
    ∃ t u : State,
      steps (data.length + 5)
        { s with inputs := (frameCodes s.cfg data).map (byteInput · now) ++ rest } = .next t ∧
      step { s with inputs := .line (frameCodes s.cfg data) now :: rest } = .next u ∧
      t.clearOut = u.clearOut

/-- A full valid frame of any count and any data, met in `Start` (R49, R50, R85): the sink is
reconfigured if the count is new, each byte is written to its channel in order, `Accepted` follows all
writes, and nothing else is put out. First as the one operation `WIRE.FRAME`, all its codes at one
sample (the model's choice, log entry 12); then as separate codes, each at a sample of its own, of which
no start delimiter after the first arrives with the idle timer due. -/
def Obligations.ValidFrameIsAccepted : Prop :=
  (∀ (s : State) (data : List Byte), s.Inv → s.cfg.ok = true → s.cfg.frameOk data = true →
    s.state = .start → 0 < s.cfg.idleTimeout →
    ∃ t : State, exec (.wireFrame data) s = .next t ∧
      t.out = s.out ++ frameEvents s data ∧ FrameStored s t data s.now ∧
      t.inputs = s.inputs ∧ t.trace = s.trace) ∧
  (∀ (s : State) (data : List Byte) (first : Nat) (later : List (Byte × Nat)) (rest : List Input),
    s.Inv → s.cfg.ok = true → s.cfg.frameOk data = true → s.state = .start →
    frameCodes s.cfg data = rawOf s.cfg s.cfg.startDelim :: later.map (·.1) →
    NoResync s.cfg first later →
    s.inputs = byteInput (rawOf s.cfg s.cfg.startDelim) first ::
      (later.map (fun c => byteInput c.1 c.2) ++ rest) →
    ∃ t : State, steps (data.length + 5) s = .next t ∧
      t.observed = s.observed ++ frameEvents s data ∧
      FrameStored s t data (lastSample first later) ∧ t.inputs = rest)

/-- The event lists of one byte step are those of R84. -/
def Obligations.EventsOfAByteStep : Prop :=
  ∀ (s t : State) (raw : Byte) (now : Nat) (rest : List Input),
    s.inputs = byteInput raw now :: rest → step s = .next t → StepEvents s.cfg t.out

/-- Every `SinkCfg(n)` carries the active count after the step (R24), and every `SinkWrite` lies inside
the count last configured (R38). -/
def Obligations.SinkEventsFollowTheActiveCount : Prop :=
  ∀ (s t : State) (rst init v : Bool) (d : Byte) (now : Nat) (rest : List Input), s.Inv →
    s.inputs = .cycle rst init v d now :: rest → step s = .next t →
    (∀ n, .sinkCfg n ∈ t.out → t.activeChannelCount.toNat = n) ∧
    (∀ i b, .sinkWrite i b ∈ t.out → i < s.activeChannelCount.toNat ∧ i ≤ 511)

/-- The control transfer of a byte step (R82), under either hook. -/
def Obligations.StateAfterAByteStep : Prop :=
  ∀ (s t : State) (raw : Byte) (now : Nat) (rest : List Input),
    s.inputs = byteInput raw now :: rest → step s = .next t →
    t.state = stateAfter (s.take rest now) raw

/-- `Finish` is never left standing at the end of a step (R21), whatever the input. -/
def Obligations.FinishIsTransient : Prop :=
  ∀ s t : State, s.state ≠ .finish → step s = .next t → t.state ≠ .finish

/-- The configuration constants are immutable (R8, R30), and so are the parameters of each timer. -/
def Obligations.ConfigurationIsImmutable : Prop :=
  ∀ s t : State, step s = .next t →
    t.cfg = s.cfg ∧ t.timers.map (·.params) = s.timers.map (·.params)

/-- Nothing reads `pendingByte` (R22): two states that differ in it alone step alike, but for it. -/
def Obligations.PendingByteIsNeverRead : Prop :=
  ∀ (s : State) (b : Byte), Agree SameButPending (step s) (step { s with pendingByte := b })

/-- The sink never feeds back (R48): two states that differ in the sink's bytes alone step alike, but
for those bytes. -/
def Obligations.SinkNeverFeedsBack : Prop :=
  ∀ (s : State) (m : List Host.Cell),
    Agree SameButChannels (step s) (step { s with sink := ⟨s.sink.count, m⟩ })

/-- In `Start` the idle stamp is not read (R36): a code that is not ignored gives the same step
whatever `scheduledTime` holds. -/
def Obligations.IdleStampIsUnseenInStart : Prop :=
  ∀ (s : State) (v : BitVec s.alarm.params.w) (raw : Byte) (now : Nat) (rest : List Input),
    s.state = .start → s.cfg.charBase ≤ raw → s.inputs = byteInput raw now :: rest →
    step { s with alarm := ⟨s.alarm.params, v⟩ } = step s
end

