-- ==== Sys2Proof/Laws/Memory.lean ====
section
/-! SUPPORT. The channel space: read after write, and the canonical form kept by every operation. -/

namespace Sys2Proof.Machine

@[simp] theorem Memory.read_nil (i : Nat) : Memory.read [] i = none := rfl

/-- A channel below every listed index reads as no value. -/
theorem Memory.read_below {i : Nat} : ∀ {m : List Host.Cell},
    (∀ c ∈ m, i < c.1) → Memory.read m i = none
  | [], _ => rfl
  | (j, u) :: rest, h => by
    have hj : i < j := h (j, u) (by simp)
    have := Memory.read_below (m := rest) fun c hc => h c (by simp [hc])
    simp [Memory.read, this, Nat.ne_of_lt hj]

/-- Read after write, at the same index and at another. -/
theorem Memory.read_write (m : List Host.Cell) (i j : Nat) (v : Byte) :
    Memory.read (Memory.write m i v) j = if j = i then some v else Memory.read m j := by
  induction m with
  | nil => simp [Memory.write, Memory.read]
  | cons c rest ih =>
    obtain ⟨k, u⟩ := c
    unfold Memory.write
    split
    · simp [Memory.read]
    · split
      · subst_vars; by_cases h : j = k <;> simp [Memory.read, h]
      · by_cases h : j = k
        · subst h
          have : ¬ j = i := by omega
          simp [Memory.read, this]
        · simp [Memory.read, h, ih]

theorem Memory.wf_cons {a : Host.Cell} {m : List Host.Cell} :
    Memory.wf (a :: m) = true ↔ (∀ b ∈ m.head?, a.1 < b.1) ∧ Memory.wf m = true := by
  cases m <;> simp [Memory.wf]

/-- The head of a written list is the index written or the old head. -/
theorem Memory.write_head (m : List Host.Cell) (i : Nat) (v : Byte) :
    ∀ b ∈ (Memory.write m i v).head?, b.1 = i ∨ b ∈ m.head? := by
  cases m with
  | nil => simp [Memory.write]
  | cons c rest =>
    obtain ⟨k, u⟩ := c
    unfold Memory.write
    split
    · simp
    · split <;> simp

/-- A write keeps the canonical form. -/
theorem Memory.write_wf (m : List Host.Cell) (i : Nat) (v : Byte) (h : Memory.wf m = true) :
    Memory.wf (Memory.write m i v) = true := by
  induction m with
  | nil => simp [Memory.write, Memory.wf]
  | cons c rest ih =>
    obtain ⟨k, u⟩ := c
    obtain ⟨hlt, hw⟩ := Memory.wf_cons.1 h
    unfold Memory.write
    split
    · rename_i hik
      exact Memory.wf_cons.2 ⟨by simpa using hik, h⟩
    · split
      · rename_i hik; subst hik
        exact Memory.wf_cons.2 ⟨hlt, hw⟩
      · refine Memory.wf_cons.2 ⟨fun b hb => ?_, ih hw⟩
        rcases Memory.write_head rest i v b hb with h1 | h1
        · simp only [h1]; omega
        · exact hlt b h1

/-- Every listed index of a written list is the index written or was listed before. -/
theorem Memory.mem_write {m : List Host.Cell} {i : Nat} {v : Byte} {c : Host.Cell}
    (h : c ∈ Memory.write m i v) : c = (i, v) ∨ c ∈ m := by
  induction m with
  | nil => simpa [Memory.write] using h
  | cons d rest ih =>
    obtain ⟨k, u⟩ := d
    unfold Memory.write at h
    split at h
    · simpa using h
    · split at h
      · rcases List.mem_cons.1 h with h | h
        · exact .inl h
        · exact .inr (by simp [h])
      · rcases List.mem_cons.1 h with h | h
        · exact .inr (by simp [h])
        · rcases ih h with h | h
          · exact .inl h
          · exact .inr (by simp [h])

end Sys2Proof.Machine
end

