-- ==== Sys2Proof/Laws/State.lean ====
section
/-! SUPPORT. Beside State: one lemma per field per update, each true by rfl, so that no proof unfolds
a record update. -/

namespace Sys2Proof.Machine

variable (s : State)

/-! ## emit -/

@[simp] theorem emit_cfg (e : Event) : (s.emit e).cfg = s.cfg := rfl
@[simp] theorem emit_state (e : Event) : (s.emit e).state = s.state := rfl
@[simp] theorem emit_pendingByte (e : Event) : (s.emit e).pendingByte = s.pendingByte := rfl
@[simp] theorem emit_declaredChannelCount (e : Event) : (s.emit e).declaredChannelCount = s.declaredChannelCount := rfl
@[simp] theorem emit_activeChannelCount (e : Event) : (s.emit e).activeChannelCount = s.activeChannelCount := rfl
@[simp] theorem emit_writeIndex (e : Event) : (s.emit e).writeIndex = s.writeIndex := rfl
@[simp] theorem emit_okIndicator (e : Event) : (s.emit e).okIndicator = s.okIndicator := rfl
@[simp] theorem emit_alarm (e : Event) : (s.emit e).alarm = s.alarm := rfl
@[simp] theorem emit_timers (e : Event) : (s.emit e).timers = s.timers := rfl
@[simp] theorem emit_sink (e : Event) : (s.emit e).sink = s.sink := rfl
@[simp] theorem emit_now (e : Event) : (s.emit e).now = s.now := rfl
@[simp] theorem emit_inputs (e : Event) : (s.emit e).inputs = s.inputs := rfl
@[simp] theorem emit_out (e : Event) : (s.emit e).out = s.out ++ [e] := rfl
@[simp] theorem emit_trace (e : Event) : (s.emit e).trace = s.trace := rfl

/-! ## goto -/

@[simp] theorem goto_cfg (st : DecoderState) : (s.goto st).cfg = s.cfg := rfl
@[simp] theorem goto_state (st : DecoderState) : (s.goto st).state = st := rfl
@[simp] theorem goto_pendingByte (st : DecoderState) : (s.goto st).pendingByte = s.pendingByte := rfl
@[simp] theorem goto_declaredChannelCount (st : DecoderState) : (s.goto st).declaredChannelCount = s.declaredChannelCount := rfl
@[simp] theorem goto_activeChannelCount (st : DecoderState) : (s.goto st).activeChannelCount = s.activeChannelCount := rfl
@[simp] theorem goto_writeIndex (st : DecoderState) : (s.goto st).writeIndex = s.writeIndex := rfl
@[simp] theorem goto_okIndicator (st : DecoderState) : (s.goto st).okIndicator = s.okIndicator := rfl
@[simp] theorem goto_alarm (st : DecoderState) : (s.goto st).alarm = s.alarm := rfl
@[simp] theorem goto_timers (st : DecoderState) : (s.goto st).timers = s.timers := rfl
@[simp] theorem goto_sink (st : DecoderState) : (s.goto st).sink = s.sink := rfl
@[simp] theorem goto_now (st : DecoderState) : (s.goto st).now = s.now := rfl
@[simp] theorem goto_inputs (st : DecoderState) : (s.goto st).inputs = s.inputs := rfl
@[simp] theorem goto_out (st : DecoderState) : (s.goto st).out = s.out := rfl
@[simp] theorem goto_trace (st : DecoderState) : (s.goto st).trace = s.trace := rfl

/-! ## storeByte -/

@[simp] theorem storeByte_cfg (ch : Byte) : (s.storeByte ch).cfg = s.cfg := rfl
@[simp] theorem storeByte_state (ch : Byte) : (s.storeByte ch).state = s.state := rfl
@[simp] theorem storeByte_pendingByte (ch : Byte) : (s.storeByte ch).pendingByte = ch := rfl
@[simp] theorem storeByte_declaredChannelCount (ch : Byte) : (s.storeByte ch).declaredChannelCount = s.declaredChannelCount := rfl
@[simp] theorem storeByte_activeChannelCount (ch : Byte) : (s.storeByte ch).activeChannelCount = s.activeChannelCount := rfl
@[simp] theorem storeByte_writeIndex (ch : Byte) : (s.storeByte ch).writeIndex = s.writeIndex := rfl
@[simp] theorem storeByte_okIndicator (ch : Byte) : (s.storeByte ch).okIndicator = s.okIndicator := rfl
@[simp] theorem storeByte_alarm (ch : Byte) : (s.storeByte ch).alarm = s.alarm := rfl
@[simp] theorem storeByte_timers (ch : Byte) : (s.storeByte ch).timers = s.timers := rfl
@[simp] theorem storeByte_sink (ch : Byte) : (s.storeByte ch).sink = s.sink := rfl
@[simp] theorem storeByte_now (ch : Byte) : (s.storeByte ch).now = s.now := rfl
@[simp] theorem storeByte_inputs (ch : Byte) : (s.storeByte ch).inputs = s.inputs := rfl
@[simp] theorem storeByte_out (ch : Byte) : (s.storeByte ch).out = s.out := rfl
@[simp] theorem storeByte_trace (ch : Byte) : (s.storeByte ch).trace = s.trace := rfl

/-! ## setLowCount -/

@[simp] theorem setLowCount_cfg (ch : Byte) : (s.setLowCount ch).cfg = s.cfg := rfl
@[simp] theorem setLowCount_state (ch : Byte) : (s.setLowCount ch).state = s.state := rfl
@[simp] theorem setLowCount_pendingByte (ch : Byte) : (s.setLowCount ch).pendingByte = s.pendingByte := rfl
@[simp] theorem setLowCount_declaredChannelCount (ch : Byte) : (s.setLowCount ch).declaredChannelCount = ch.setWidth 16 := rfl
@[simp] theorem setLowCount_activeChannelCount (ch : Byte) : (s.setLowCount ch).activeChannelCount = s.activeChannelCount := rfl
@[simp] theorem setLowCount_writeIndex (ch : Byte) : (s.setLowCount ch).writeIndex = s.writeIndex := rfl
@[simp] theorem setLowCount_okIndicator (ch : Byte) : (s.setLowCount ch).okIndicator = s.okIndicator := rfl
@[simp] theorem setLowCount_alarm (ch : Byte) : (s.setLowCount ch).alarm = s.alarm := rfl
@[simp] theorem setLowCount_timers (ch : Byte) : (s.setLowCount ch).timers = s.timers := rfl
@[simp] theorem setLowCount_sink (ch : Byte) : (s.setLowCount ch).sink = s.sink := rfl
@[simp] theorem setLowCount_now (ch : Byte) : (s.setLowCount ch).now = s.now := rfl
@[simp] theorem setLowCount_inputs (ch : Byte) : (s.setLowCount ch).inputs = s.inputs := rfl
@[simp] theorem setLowCount_out (ch : Byte) : (s.setLowCount ch).out = s.out := rfl
@[simp] theorem setLowCount_trace (ch : Byte) : (s.setLowCount ch).trace = s.trace := rfl

/-! ## completeCount -/

@[simp] theorem completeCount_cfg (ch : Byte) : (s.completeCount ch).cfg = s.cfg := rfl
@[simp] theorem completeCount_state (ch : Byte) : (s.completeCount ch).state = s.state := rfl
@[simp] theorem completeCount_pendingByte (ch : Byte) : (s.completeCount ch).pendingByte = s.pendingByte := rfl
@[simp] theorem completeCount_declaredChannelCount (ch : Byte) : (s.completeCount ch).declaredChannelCount = highCount s.declaredChannelCount ch := rfl
@[simp] theorem completeCount_activeChannelCount (ch : Byte) : (s.completeCount ch).activeChannelCount = s.activeChannelCount := rfl
@[simp] theorem completeCount_writeIndex (ch : Byte) : (s.completeCount ch).writeIndex = s.writeIndex := rfl
@[simp] theorem completeCount_okIndicator (ch : Byte) : (s.completeCount ch).okIndicator = s.okIndicator := rfl
@[simp] theorem completeCount_alarm (ch : Byte) : (s.completeCount ch).alarm = s.alarm := rfl
@[simp] theorem completeCount_timers (ch : Byte) : (s.completeCount ch).timers = s.timers := rfl
@[simp] theorem completeCount_sink (ch : Byte) : (s.completeCount ch).sink = s.sink := rfl
@[simp] theorem completeCount_now (ch : Byte) : (s.completeCount ch).now = s.now := rfl
@[simp] theorem completeCount_inputs (ch : Byte) : (s.completeCount ch).inputs = s.inputs := rfl
@[simp] theorem completeCount_out (ch : Byte) : (s.completeCount ch).out = s.out := rfl
@[simp] theorem completeCount_trace (ch : Byte) : (s.completeCount ch).trace = s.trace := rfl

/-! ## activate -/

@[simp] theorem activate_cfg (d : BitVec 16) : (s.activate d).cfg = s.cfg := rfl
@[simp] theorem activate_state (d : BitVec 16) : (s.activate d).state = s.state := rfl
@[simp] theorem activate_pendingByte (d : BitVec 16) : (s.activate d).pendingByte = s.pendingByte := rfl
@[simp] theorem activate_declaredChannelCount (d : BitVec 16) : (s.activate d).declaredChannelCount = s.declaredChannelCount := rfl
@[simp] theorem activate_activeChannelCount (d : BitVec 16) : (s.activate d).activeChannelCount = d.setWidth 10 := rfl
@[simp] theorem activate_writeIndex (d : BitVec 16) : (s.activate d).writeIndex = s.writeIndex := rfl
@[simp] theorem activate_okIndicator (d : BitVec 16) : (s.activate d).okIndicator = s.okIndicator := rfl
@[simp] theorem activate_alarm (d : BitVec 16) : (s.activate d).alarm = s.alarm := rfl
@[simp] theorem activate_timers (d : BitVec 16) : (s.activate d).timers = s.timers := rfl
@[simp] theorem activate_sink (d : BitVec 16) : (s.activate d).sink = s.sink := rfl
@[simp] theorem activate_now (d : BitVec 16) : (s.activate d).now = s.now := rfl
@[simp] theorem activate_inputs (d : BitVec 16) : (s.activate d).inputs = s.inputs := rfl
@[simp] theorem activate_out (d : BitVec 16) : (s.activate d).out = s.out := rfl
@[simp] theorem activate_trace (d : BitVec 16) : (s.activate d).trace = s.trace := rfl

/-! ## enterData -/

@[simp] theorem enterData_cfg : (s.enterData).cfg = s.cfg := rfl
@[simp] theorem enterData_state : (s.enterData).state = .data := rfl
@[simp] theorem enterData_pendingByte : (s.enterData).pendingByte = s.pendingByte := rfl
@[simp] theorem enterData_declaredChannelCount : (s.enterData).declaredChannelCount = s.declaredChannelCount := rfl
@[simp] theorem enterData_activeChannelCount : (s.enterData).activeChannelCount = s.activeChannelCount := rfl
@[simp] theorem enterData_writeIndex : (s.enterData).writeIndex = 0 := rfl
@[simp] theorem enterData_okIndicator : (s.enterData).okIndicator = s.okIndicator := rfl
@[simp] theorem enterData_alarm : (s.enterData).alarm = s.alarm := rfl
@[simp] theorem enterData_timers : (s.enterData).timers = s.timers := rfl
@[simp] theorem enterData_sink : (s.enterData).sink = s.sink := rfl
@[simp] theorem enterData_now : (s.enterData).now = s.now := rfl
@[simp] theorem enterData_inputs : (s.enterData).inputs = s.inputs := rfl
@[simp] theorem enterData_out : (s.enterData).out = s.out := rfl
@[simp] theorem enterData_trace : (s.enterData).trace = s.trace := rfl

/-! ## stepIndex -/

@[simp] theorem stepIndex_cfg : (s.stepIndex).cfg = s.cfg := rfl
@[simp] theorem stepIndex_state : (s.stepIndex).state = s.state := rfl
@[simp] theorem stepIndex_pendingByte : (s.stepIndex).pendingByte = s.pendingByte := rfl
@[simp] theorem stepIndex_declaredChannelCount : (s.stepIndex).declaredChannelCount = s.declaredChannelCount := rfl
@[simp] theorem stepIndex_activeChannelCount : (s.stepIndex).activeChannelCount = s.activeChannelCount := rfl
@[simp] theorem stepIndex_writeIndex : (s.stepIndex).writeIndex = s.writeIndex + 1 := rfl
@[simp] theorem stepIndex_okIndicator : (s.stepIndex).okIndicator = s.okIndicator := rfl
@[simp] theorem stepIndex_alarm : (s.stepIndex).alarm = s.alarm := rfl
@[simp] theorem stepIndex_timers : (s.stepIndex).timers = s.timers := rfl
@[simp] theorem stepIndex_sink : (s.stepIndex).sink = s.sink := rfl
@[simp] theorem stepIndex_now : (s.stepIndex).now = s.now := rfl
@[simp] theorem stepIndex_inputs : (s.stepIndex).inputs = s.inputs := rfl
@[simp] theorem stepIndex_out : (s.stepIndex).out = s.out := rfl
@[simp] theorem stepIndex_trace : (s.stepIndex).trace = s.trace := rfl

/-! ## sinkSetCount -/

@[simp] theorem sinkSetCount_cfg (n : Nat) : (s.sinkSetCount n).cfg = s.cfg := rfl
@[simp] theorem sinkSetCount_state (n : Nat) : (s.sinkSetCount n).state = s.state := rfl
@[simp] theorem sinkSetCount_pendingByte (n : Nat) : (s.sinkSetCount n).pendingByte = s.pendingByte := rfl
@[simp] theorem sinkSetCount_declaredChannelCount (n : Nat) : (s.sinkSetCount n).declaredChannelCount = s.declaredChannelCount := rfl
@[simp] theorem sinkSetCount_activeChannelCount (n : Nat) : (s.sinkSetCount n).activeChannelCount = s.activeChannelCount := rfl
@[simp] theorem sinkSetCount_writeIndex (n : Nat) : (s.sinkSetCount n).writeIndex = s.writeIndex := rfl
@[simp] theorem sinkSetCount_okIndicator (n : Nat) : (s.sinkSetCount n).okIndicator = s.okIndicator := rfl
@[simp] theorem sinkSetCount_alarm (n : Nat) : (s.sinkSetCount n).alarm = s.alarm := rfl
@[simp] theorem sinkSetCount_timers (n : Nat) : (s.sinkSetCount n).timers = s.timers := rfl
@[simp] theorem sinkSetCount_sink (n : Nat) : (s.sinkSetCount n).sink = ⟨n, []⟩ := rfl
@[simp] theorem sinkSetCount_now (n : Nat) : (s.sinkSetCount n).now = s.now := rfl
@[simp] theorem sinkSetCount_inputs (n : Nat) : (s.sinkSetCount n).inputs = s.inputs := rfl
@[simp] theorem sinkSetCount_out (n : Nat) : (s.sinkSetCount n).out = s.out ++ [.sinkCfg n] := rfl
@[simp] theorem sinkSetCount_trace (n : Nat) : (s.sinkSetCount n).trace = s.trace := rfl

/-! ## sinkStage -/

@[simp] theorem sinkStage_cfg (i : Nat) (v : Byte) : (s.sinkStage i v).cfg = s.cfg := rfl
@[simp] theorem sinkStage_state (i : Nat) (v : Byte) : (s.sinkStage i v).state = s.state := rfl
@[simp] theorem sinkStage_pendingByte (i : Nat) (v : Byte) : (s.sinkStage i v).pendingByte = s.pendingByte := rfl
@[simp] theorem sinkStage_declaredChannelCount (i : Nat) (v : Byte) : (s.sinkStage i v).declaredChannelCount = s.declaredChannelCount := rfl
@[simp] theorem sinkStage_activeChannelCount (i : Nat) (v : Byte) : (s.sinkStage i v).activeChannelCount = s.activeChannelCount := rfl
@[simp] theorem sinkStage_writeIndex (i : Nat) (v : Byte) : (s.sinkStage i v).writeIndex = s.writeIndex := rfl
@[simp] theorem sinkStage_okIndicator (i : Nat) (v : Byte) : (s.sinkStage i v).okIndicator = s.okIndicator := rfl
@[simp] theorem sinkStage_alarm (i : Nat) (v : Byte) : (s.sinkStage i v).alarm = s.alarm := rfl
@[simp] theorem sinkStage_timers (i : Nat) (v : Byte) : (s.sinkStage i v).timers = s.timers := rfl
@[simp] theorem sinkStage_sink (i : Nat) (v : Byte) : (s.sinkStage i v).sink = ⟨s.sink.count, Memory.write s.sink.channels i v⟩ := rfl
@[simp] theorem sinkStage_now (i : Nat) (v : Byte) : (s.sinkStage i v).now = s.now := rfl
@[simp] theorem sinkStage_inputs (i : Nat) (v : Byte) : (s.sinkStage i v).inputs = s.inputs := rfl
@[simp] theorem sinkStage_out (i : Nat) (v : Byte) : (s.sinkStage i v).out = s.out ++ [.sinkWrite i v] := rfl
@[simp] theorem sinkStage_trace (i : Nat) (v : Byte) : (s.sinkStage i v).trace = s.trace := rfl

/-! ## touch -/

@[simp] theorem touch_cfg : (s.touch).cfg = s.cfg := rfl
@[simp] theorem touch_state : (s.touch).state = s.state := rfl
@[simp] theorem touch_pendingByte : (s.touch).pendingByte = s.pendingByte := rfl
@[simp] theorem touch_declaredChannelCount : (s.touch).declaredChannelCount = s.declaredChannelCount := rfl
@[simp] theorem touch_activeChannelCount : (s.touch).activeChannelCount = s.activeChannelCount := rfl
@[simp] theorem touch_writeIndex : (s.touch).writeIndex = s.writeIndex := rfl
@[simp] theorem touch_okIndicator : (s.touch).okIndicator = s.okIndicator := rfl
@[simp] theorem touch_alarm : (s.touch).alarm = s.alarm.rebase s.cfg.tw s.now := rfl
@[simp] theorem touch_timers : (s.touch).timers = s.timers := rfl
@[simp] theorem touch_sink : (s.touch).sink = s.sink := rfl
@[simp] theorem touch_now : (s.touch).now = s.now := rfl
@[simp] theorem touch_inputs : (s.touch).inputs = s.inputs := rfl
@[simp] theorem touch_out : (s.touch).out = s.out := rfl
@[simp] theorem touch_trace : (s.touch).trace = s.trace := rfl

/-! ## setTimer -/

@[simp] theorem setTimer_cfg (k : Nat) (t : AlarmTimer) : (s.setTimer k t).cfg = s.cfg := rfl
@[simp] theorem setTimer_state (k : Nat) (t : AlarmTimer) : (s.setTimer k t).state = s.state := rfl
@[simp] theorem setTimer_pendingByte (k : Nat) (t : AlarmTimer) : (s.setTimer k t).pendingByte = s.pendingByte := rfl
@[simp] theorem setTimer_declaredChannelCount (k : Nat) (t : AlarmTimer) : (s.setTimer k t).declaredChannelCount = s.declaredChannelCount := rfl
@[simp] theorem setTimer_activeChannelCount (k : Nat) (t : AlarmTimer) : (s.setTimer k t).activeChannelCount = s.activeChannelCount := rfl
@[simp] theorem setTimer_writeIndex (k : Nat) (t : AlarmTimer) : (s.setTimer k t).writeIndex = s.writeIndex := rfl
@[simp] theorem setTimer_okIndicator (k : Nat) (t : AlarmTimer) : (s.setTimer k t).okIndicator = s.okIndicator := rfl
@[simp] theorem setTimer_alarm (k : Nat) (t : AlarmTimer) : (s.setTimer k t).alarm = s.alarm := rfl
@[simp] theorem setTimer_timers (k : Nat) (t : AlarmTimer) : (s.setTimer k t).timers = s.timers.set k t := rfl
@[simp] theorem setTimer_sink (k : Nat) (t : AlarmTimer) : (s.setTimer k t).sink = s.sink := rfl
@[simp] theorem setTimer_now (k : Nat) (t : AlarmTimer) : (s.setTimer k t).now = s.now := rfl
@[simp] theorem setTimer_inputs (k : Nat) (t : AlarmTimer) : (s.setTimer k t).inputs = s.inputs := rfl
@[simp] theorem setTimer_out (k : Nat) (t : AlarmTimer) : (s.setTimer k t).out = s.out := rfl
@[simp] theorem setTimer_trace (k : Nat) (t : AlarmTimer) : (s.setTimer k t).trace = s.trace := rfl

/-! ## timerDone -/

@[simp] theorem timerDone_cfg (k : Nat) (t : AlarmTimer) (b : Bool) : (s.timerDone k t b).cfg = s.cfg := rfl
@[simp] theorem timerDone_state (k : Nat) (t : AlarmTimer) (b : Bool) : (s.timerDone k t b).state = s.state := rfl
@[simp] theorem timerDone_pendingByte (k : Nat) (t : AlarmTimer) (b : Bool) : (s.timerDone k t b).pendingByte = s.pendingByte := rfl
@[simp] theorem timerDone_declaredChannelCount (k : Nat) (t : AlarmTimer) (b : Bool) : (s.timerDone k t b).declaredChannelCount = s.declaredChannelCount := rfl
@[simp] theorem timerDone_activeChannelCount (k : Nat) (t : AlarmTimer) (b : Bool) : (s.timerDone k t b).activeChannelCount = s.activeChannelCount := rfl
@[simp] theorem timerDone_writeIndex (k : Nat) (t : AlarmTimer) (b : Bool) : (s.timerDone k t b).writeIndex = s.writeIndex := rfl
@[simp] theorem timerDone_okIndicator (k : Nat) (t : AlarmTimer) (b : Bool) : (s.timerDone k t b).okIndicator = s.okIndicator := rfl
@[simp] theorem timerDone_alarm (k : Nat) (t : AlarmTimer) (b : Bool) : (s.timerDone k t b).alarm = s.alarm := rfl
@[simp] theorem timerDone_timers (k : Nat) (t : AlarmTimer) (b : Bool) : (s.timerDone k t b).timers = s.timers.set k t := rfl
@[simp] theorem timerDone_sink (k : Nat) (t : AlarmTimer) (b : Bool) : (s.timerDone k t b).sink = s.sink := rfl
@[simp] theorem timerDone_now (k : Nat) (t : AlarmTimer) (b : Bool) : (s.timerDone k t b).now = s.now := rfl
@[simp] theorem timerDone_inputs (k : Nat) (t : AlarmTimer) (b : Bool) : (s.timerDone k t b).inputs = s.inputs := rfl
@[simp] theorem timerDone_out (k : Nat) (t : AlarmTimer) (b : Bool) : (s.timerDone k t b).out = s.out ++ [.due k b] := rfl
@[simp] theorem timerDone_trace (k : Nat) (t : AlarmTimer) (b : Bool) : (s.timerDone k t b).trace = s.trace := rfl

/-! ## setOk -/

@[simp] theorem setOk_cfg (v : Bool) : (s.setOk v).cfg = s.cfg := rfl
@[simp] theorem setOk_state (v : Bool) : (s.setOk v).state = s.state := rfl
@[simp] theorem setOk_pendingByte (v : Bool) : (s.setOk v).pendingByte = s.pendingByte := rfl
@[simp] theorem setOk_declaredChannelCount (v : Bool) : (s.setOk v).declaredChannelCount = s.declaredChannelCount := rfl
@[simp] theorem setOk_activeChannelCount (v : Bool) : (s.setOk v).activeChannelCount = s.activeChannelCount := rfl
@[simp] theorem setOk_writeIndex (v : Bool) : (s.setOk v).writeIndex = s.writeIndex := rfl
@[simp] theorem setOk_okIndicator (v : Bool) : (s.setOk v).okIndicator = v := rfl
@[simp] theorem setOk_alarm (v : Bool) : (s.setOk v).alarm = s.alarm := rfl
@[simp] theorem setOk_timers (v : Bool) : (s.setOk v).timers = s.timers := rfl
@[simp] theorem setOk_sink (v : Bool) : (s.setOk v).sink = s.sink := rfl
@[simp] theorem setOk_now (v : Bool) : (s.setOk v).now = s.now := rfl
@[simp] theorem setOk_inputs (v : Bool) : (s.setOk v).inputs = s.inputs := rfl
@[simp] theorem setOk_out (v : Bool) : (s.setOk v).out = s.out := rfl
@[simp] theorem setOk_trace (v : Bool) : (s.setOk v).trace = s.trace := rfl

/-! ## accept -/

@[simp] theorem accept_cfg : (s.accept).cfg = s.cfg := rfl
@[simp] theorem accept_state : (s.accept).state = s.state := rfl
@[simp] theorem accept_pendingByte : (s.accept).pendingByte = s.pendingByte := rfl
@[simp] theorem accept_declaredChannelCount : (s.accept).declaredChannelCount = s.declaredChannelCount := rfl
@[simp] theorem accept_activeChannelCount : (s.accept).activeChannelCount = s.activeChannelCount := rfl
@[simp] theorem accept_writeIndex : (s.accept).writeIndex = s.writeIndex := rfl
@[simp] theorem accept_okIndicator : (s.accept).okIndicator = true := rfl
@[simp] theorem accept_alarm : (s.accept).alarm = s.alarm := rfl
@[simp] theorem accept_timers : (s.accept).timers = s.timers := rfl
@[simp] theorem accept_sink : (s.accept).sink = s.sink := rfl
@[simp] theorem accept_now : (s.accept).now = s.now := rfl
@[simp] theorem accept_inputs : (s.accept).inputs = s.inputs := rfl
@[simp] theorem accept_out : (s.accept).out = s.out ++ [.accepted] := rfl
@[simp] theorem accept_trace : (s.accept).trace = s.trace := rfl

/-! ## fullReset -/

@[simp] theorem fullReset_cfg : (s.fullReset).cfg = s.cfg := rfl
@[simp] theorem fullReset_state : (s.fullReset).state = .start := rfl
@[simp] theorem fullReset_pendingByte : (s.fullReset).pendingByte = s.pendingByte := rfl
@[simp] theorem fullReset_declaredChannelCount : (s.fullReset).declaredChannelCount = s.declaredChannelCount := rfl
@[simp] theorem fullReset_activeChannelCount : (s.fullReset).activeChannelCount = 0 := rfl
@[simp] theorem fullReset_writeIndex : (s.fullReset).writeIndex = 0 := rfl
@[simp] theorem fullReset_okIndicator : (s.fullReset).okIndicator = false := rfl
@[simp] theorem fullReset_alarm : (s.fullReset).alarm = s.alarm.rebase s.cfg.tw s.now := rfl
@[simp] theorem fullReset_timers : (s.fullReset).timers = s.timers := rfl
@[simp] theorem fullReset_sink : (s.fullReset).sink = ⟨0, []⟩ := rfl
@[simp] theorem fullReset_now : (s.fullReset).now = s.now := rfl
@[simp] theorem fullReset_inputs : (s.fullReset).inputs = s.inputs := rfl
@[simp] theorem fullReset_out : (s.fullReset).out = s.out ++ [.sinkCfg 0] := rfl
@[simp] theorem fullReset_trace : (s.fullReset).trace = s.trace := rfl

/-! ## createRegisters -/

@[simp] theorem createRegisters_cfg : (s.createRegisters).cfg = s.cfg := rfl
@[simp] theorem createRegisters_state : (s.createRegisters).state = .start := rfl
@[simp] theorem createRegisters_pendingByte : (s.createRegisters).pendingByte = 0 := rfl
@[simp] theorem createRegisters_declaredChannelCount : (s.createRegisters).declaredChannelCount = 0 := rfl
@[simp] theorem createRegisters_activeChannelCount : (s.createRegisters).activeChannelCount = 0 := rfl
@[simp] theorem createRegisters_writeIndex : (s.createRegisters).writeIndex = 0 := rfl
@[simp] theorem createRegisters_okIndicator : (s.createRegisters).okIndicator = false := rfl
@[simp] theorem createRegisters_alarm : (s.createRegisters).alarm = .created s.cfg.alarm := rfl
@[simp] theorem createRegisters_timers : (s.createRegisters).timers = s.timers := rfl
@[simp] theorem createRegisters_sink : (s.createRegisters).sink = s.sink := rfl
@[simp] theorem createRegisters_now : (s.createRegisters).now = s.now := rfl
@[simp] theorem createRegisters_inputs : (s.createRegisters).inputs = s.inputs := rfl
@[simp] theorem createRegisters_out : (s.createRegisters).out = s.out := rfl
@[simp] theorem createRegisters_trace : (s.createRegisters).trace = s.trace := rfl

/-! ## clearOut -/

@[simp] theorem clearOut_cfg : (s.clearOut).cfg = s.cfg := rfl
@[simp] theorem clearOut_state : (s.clearOut).state = s.state := rfl
@[simp] theorem clearOut_pendingByte : (s.clearOut).pendingByte = s.pendingByte := rfl
@[simp] theorem clearOut_declaredChannelCount : (s.clearOut).declaredChannelCount = s.declaredChannelCount := rfl
@[simp] theorem clearOut_activeChannelCount : (s.clearOut).activeChannelCount = s.activeChannelCount := rfl
@[simp] theorem clearOut_writeIndex : (s.clearOut).writeIndex = s.writeIndex := rfl
@[simp] theorem clearOut_okIndicator : (s.clearOut).okIndicator = s.okIndicator := rfl
@[simp] theorem clearOut_alarm : (s.clearOut).alarm = s.alarm := rfl
@[simp] theorem clearOut_timers : (s.clearOut).timers = s.timers := rfl
@[simp] theorem clearOut_sink : (s.clearOut).sink = s.sink := rfl
@[simp] theorem clearOut_now : (s.clearOut).now = s.now := rfl
@[simp] theorem clearOut_inputs : (s.clearOut).inputs = s.inputs := rfl
@[simp] theorem clearOut_out : (s.clearOut).out = [] := rfl
@[simp] theorem clearOut_trace : (s.clearOut).trace = s.trace ++ s.out := rfl

/-! ## take -/

@[simp] theorem take_cfg (rest : List Input) (n : Nat) : (s.take rest n).cfg = s.cfg := rfl
@[simp] theorem take_state (rest : List Input) (n : Nat) : (s.take rest n).state = s.state := rfl
@[simp] theorem take_pendingByte (rest : List Input) (n : Nat) : (s.take rest n).pendingByte = s.pendingByte := rfl
@[simp] theorem take_declaredChannelCount (rest : List Input) (n : Nat) : (s.take rest n).declaredChannelCount = s.declaredChannelCount := rfl
@[simp] theorem take_activeChannelCount (rest : List Input) (n : Nat) : (s.take rest n).activeChannelCount = s.activeChannelCount := rfl
@[simp] theorem take_writeIndex (rest : List Input) (n : Nat) : (s.take rest n).writeIndex = s.writeIndex := rfl
@[simp] theorem take_okIndicator (rest : List Input) (n : Nat) : (s.take rest n).okIndicator = s.okIndicator := rfl
@[simp] theorem take_alarm (rest : List Input) (n : Nat) : (s.take rest n).alarm = s.alarm := rfl
@[simp] theorem take_timers (rest : List Input) (n : Nat) : (s.take rest n).timers = s.timers := rfl
@[simp] theorem take_sink (rest : List Input) (n : Nat) : (s.take rest n).sink = s.sink := rfl
@[simp] theorem take_now (rest : List Input) (n : Nat) : (s.take rest n).now = n := rfl
@[simp] theorem take_inputs (rest : List Input) (n : Nat) : (s.take rest n).inputs = rest := rfl
@[simp] theorem take_out (rest : List Input) (n : Nat) : (s.take rest n).out = [] := rfl
@[simp] theorem take_trace (rest : List Input) (n : Nat) : (s.take rest n).trace = s.trace ++ s.out := rfl

/-! ## offer -/

@[simp] theorem offer_cfg (i : Input) : (s.offer i).cfg = s.cfg := rfl
@[simp] theorem offer_state (i : Input) : (s.offer i).state = s.state := rfl
@[simp] theorem offer_pendingByte (i : Input) : (s.offer i).pendingByte = s.pendingByte := rfl
@[simp] theorem offer_declaredChannelCount (i : Input) : (s.offer i).declaredChannelCount = s.declaredChannelCount := rfl
@[simp] theorem offer_activeChannelCount (i : Input) : (s.offer i).activeChannelCount = s.activeChannelCount := rfl
@[simp] theorem offer_writeIndex (i : Input) : (s.offer i).writeIndex = s.writeIndex := rfl
@[simp] theorem offer_okIndicator (i : Input) : (s.offer i).okIndicator = s.okIndicator := rfl
@[simp] theorem offer_alarm (i : Input) : (s.offer i).alarm = s.alarm := rfl
@[simp] theorem offer_timers (i : Input) : (s.offer i).timers = s.timers := rfl
@[simp] theorem offer_sink (i : Input) : (s.offer i).sink = s.sink := rfl
@[simp] theorem offer_now (i : Input) : (s.offer i).now = s.now := rfl
@[simp] theorem offer_inputs (i : Input) : (s.offer i).inputs = i :: s.inputs := rfl
@[simp] theorem offer_out (i : Input) : (s.offer i).out = s.out := rfl
@[simp] theorem offer_trace (i : Input) : (s.offer i).trace = s.trace := rfl

/-! ## selectKey -/

@[simp] theorem selectKey_cfg (st : DecoderState) : (s.selectKey st).cfg = s.cfg := rfl
@[simp] theorem selectKey_state (st : DecoderState) : (s.selectKey st).state = st := rfl
@[simp] theorem selectKey_pendingByte (st : DecoderState) : (s.selectKey st).pendingByte = s.pendingByte := rfl
@[simp] theorem selectKey_declaredChannelCount (st : DecoderState) : (s.selectKey st).declaredChannelCount = 0 := rfl
@[simp] theorem selectKey_activeChannelCount (st : DecoderState) : (s.selectKey st).activeChannelCount = 0 := rfl
@[simp] theorem selectKey_writeIndex (st : DecoderState) : (s.selectKey st).writeIndex = 0 := rfl
@[simp] theorem selectKey_okIndicator (st : DecoderState) : (s.selectKey st).okIndicator = s.okIndicator := rfl
@[simp] theorem selectKey_alarm (st : DecoderState) : (s.selectKey st).alarm = s.alarm := rfl
@[simp] theorem selectKey_timers (st : DecoderState) : (s.selectKey st).timers = s.timers := rfl
@[simp] theorem selectKey_sink (st : DecoderState) : (s.selectKey st).sink = s.sink := rfl
@[simp] theorem selectKey_now (st : DecoderState) : (s.selectKey st).now = s.now := rfl
@[simp] theorem selectKey_inputs (st : DecoderState) : (s.selectKey st).inputs = s.inputs := rfl
@[simp] theorem selectKey_out (st : DecoderState) : (s.selectKey st).out = s.out := rfl
@[simp] theorem selectKey_trace (st : DecoderState) : (s.selectKey st).trace = s.trace := rfl

/-! ## The hook bodies, which depend on `ERR_HOOK` -/

theorem errorHook_default (h : s.cfg.errHook = .default) : s.errorHook = s.fullReset := by
  simp [State.errorHook, h]

theorem errorHook_notifyOnly (h : s.cfg.errHook = .notifyOnly) : s.errorHook = s := by
  simp [State.errorHook, h]

theorem abortHeader_default (h : s.cfg.errHook = .default) : s.abortHeader = s := by
  simp [State.abortHeader, h]

theorem abortHeader_notifyOnly (h : s.cfg.errHook = .notifyOnly) :
    s.abortHeader = s.enterData := by
  simp [State.abortHeader, h]

@[simp] theorem errorHook_cfg : s.errorHook.cfg = s.cfg := by
  unfold State.errorHook; split <;> rfl

@[simp] theorem raise_cfg (tag : FaultTag) : (s.raise tag).cfg = s.cfg := by
  simp [State.raise]

@[simp] theorem errorHook_pendingByte : s.errorHook.pendingByte = s.pendingByte := by
  unfold State.errorHook; split <;> rfl

@[simp] theorem raise_pendingByte (tag : FaultTag) : (s.raise tag).pendingByte = s.pendingByte := by
  simp [State.raise]

@[simp] theorem errorHook_declaredChannelCount : s.errorHook.declaredChannelCount = s.declaredChannelCount := by
  unfold State.errorHook; split <;> rfl

@[simp] theorem raise_declaredChannelCount (tag : FaultTag) : (s.raise tag).declaredChannelCount = s.declaredChannelCount := by
  simp [State.raise]

@[simp] theorem errorHook_timers : s.errorHook.timers = s.timers := by
  unfold State.errorHook; split <;> rfl

@[simp] theorem raise_timers (tag : FaultTag) : (s.raise tag).timers = s.timers := by
  simp [State.raise]

@[simp] theorem errorHook_now : s.errorHook.now = s.now := by
  unfold State.errorHook; split <;> rfl

@[simp] theorem raise_now (tag : FaultTag) : (s.raise tag).now = s.now := by
  simp [State.raise]

@[simp] theorem errorHook_inputs : s.errorHook.inputs = s.inputs := by
  unfold State.errorHook; split <;> rfl

@[simp] theorem raise_inputs (tag : FaultTag) : (s.raise tag).inputs = s.inputs := by
  simp [State.raise]

@[simp] theorem errorHook_trace : s.errorHook.trace = s.trace := by
  unfold State.errorHook; split <;> rfl

@[simp] theorem raise_trace (tag : FaultTag) : (s.raise tag).trace = s.trace := by
  simp [State.raise]

@[simp] theorem abortHeader_cfg : s.abortHeader.cfg = s.cfg := by
  unfold State.abortHeader; split <;> rfl

@[simp] theorem abortHeader_pendingByte : s.abortHeader.pendingByte = s.pendingByte := by
  unfold State.abortHeader; split <;> rfl

@[simp] theorem abortHeader_declaredChannelCount : s.abortHeader.declaredChannelCount = s.declaredChannelCount := by
  unfold State.abortHeader; split <;> rfl

@[simp] theorem abortHeader_activeChannelCount : s.abortHeader.activeChannelCount = s.activeChannelCount := by
  unfold State.abortHeader; split <;> rfl

@[simp] theorem abortHeader_okIndicator : s.abortHeader.okIndicator = s.okIndicator := by
  unfold State.abortHeader; split <;> rfl

@[simp] theorem abortHeader_alarm : s.abortHeader.alarm = s.alarm := by
  unfold State.abortHeader; split <;> rfl

@[simp] theorem abortHeader_timers : s.abortHeader.timers = s.timers := by
  unfold State.abortHeader; split <;> rfl

@[simp] theorem abortHeader_sink : s.abortHeader.sink = s.sink := by
  unfold State.abortHeader; split <;> rfl

@[simp] theorem abortHeader_now : s.abortHeader.now = s.now := by
  unfold State.abortHeader; split <;> rfl

@[simp] theorem abortHeader_inputs : s.abortHeader.inputs = s.inputs := by
  unfold State.abortHeader; split <;> rfl

@[simp] theorem abortHeader_out : s.abortHeader.out = s.out := by
  unfold State.abortHeader; split <;> rfl

@[simp] theorem abortHeader_trace : s.abortHeader.trace = s.trace := by
  unfold State.abortHeader; split <;> rfl

/-! ## Timers -/

variable (t : AlarmTimer)

@[simp] theorem schedule_params (v : BitVec t.params.w) : (t.schedule v).params = t.params := rfl
@[simp] theorem schedule_scheduledTime (v : BitVec t.params.w) :
    (t.schedule v).scheduledTime = v := rfl
@[simp] theorem set_params (tw now d : Nat) : (t.set tw now d).params = t.params := rfl
@[simp] theorem set_scheduledTime (tw now d : Nat) :
    (t.set tw now d).scheduledTime = coarsen tw t.params now + timerOperand t.params d := rfl
@[simp] theorem rebase_params (tw now : Nat) : (t.rebase tw now).params = t.params := rfl
@[simp] theorem rebase_scheduledTime (tw now : Nat) :
    (t.rebase tw now).scheduledTime = coarsen tw t.params now := rfl
@[simp] theorem rebase_rebase (tw tw' now now' : Nat) :
    (t.rebase tw now).rebase tw' now' = t.rebase tw' now' := rfl
@[simp] theorem advance_params (d : Nat) : (t.advance d).params = t.params := rfl
@[simp] theorem advance_scheduledTime (d : Nat) :
    (t.advance d).scheduledTime = t.scheduledTime + timerOperand t.params d := rfl
@[simp] theorem created_params (p : TimerParams) : (AlarmTimer.created p).params = p := rfl
@[simp] theorem created_scheduledTime (p : TimerParams) :
    (AlarmTimer.created p).scheduledTime = 0 := rfl

end Sys2Proof.Machine
end

