-- ==== Sys2Proof/Laws/Ops.lean ====
section
/-! SUPPORT. For each shared operation that may stop, one lemma that says all it can do. -/

namespace Sys2Proof.Machine

@[simp] theorem andThen_next (s : State) (f : State → Result) : andThen (.next s) f = f s := rfl
@[simp] theorem andThen_refused (r : Refusal) (f : State → Result) :
    andThen (.refused r) f = .refused r := rfl

/-- A composition goes on only where both parts do. -/
theorem andThen_eq_next {r : Result} {f : State → Result} {t : State} :
    andThen r f = .next t ↔ ∃ u, r = .next u ∧ f u = .next t := by
  cases r <;> simp [andThen]

/-- `SinkSetCount(n)` goes on for a count of at most 512, with the event and an emptied sink. -/
theorem sinkConfigure_eq_next {n : Nat} {s t : State} :
    sinkConfigure n s = .next t ↔ n ≤ sinkCapacity ∧ t = s.sinkSetCount n := by
  unfold sinkConfigure; split <;> simp_all [eq_comm]

/-- `MemWrite(i, 1, v)` goes on for an index below the sink's count, with the event and the byte. -/
theorem memWrite_eq_next {i : Nat} {v : Byte} {s t : State} :
    memWrite i v s = .next t ↔ i < s.sink.count ∧ t = s.sinkStage i v := by
  unfold memWrite; split <;> simp_all [eq_comm]

theorem byteDone_eq_next {s t : State} : byteDone s = .next t ↔ t = s.touch := by
  simp [byteDone, eq_comm]

/-- An operation on a timer goes on only on an instance that exists. -/
theorem withTimer_eq_next {k : Nat} {s u : State} {f : AlarmTimer → Result} :
    withTimer k s f = .next u ↔ ∃ t, s.timers[k]? = some t ∧ f t = .next u := by
  unfold withTimer; split <;> simp_all

theorem withTimer_some {k : Nat} {s : State} {t : AlarmTimer} (h : s.timers[k]? = some t)
    (f : AlarmTimer → Result) : withTimer k s f = f t := by
  simp [withTimer, h]

/-- A helper goes on where its timer exists and its result is at most the horizon, with the operand
out and nothing else. -/
theorem helper_eq_next {n : Nat} {sel : TimerSel} {t : Nat} {s u : State} :
    helper n sel t s = .next u ↔ ∃ p, s.paramsOf sel = some p ∧
      up p.s (t * n * s.cfg.ticksPerMs) ≤ horizon p.w ∧
      u = s.emit (.operand (up p.s (t * n * s.cfg.ticksPerMs))) := by
  unfold helper
  cases s.paramsOf sel with
  | none => simp
  | some p =>
    by_cases h : up p.s (t * n * s.cfg.ticksPerMs) ≤ horizon p.w <;> simp [h, eq_comm]

/-- Hardware reset goes on for a configuration that meets its constraints. -/
theorem hardwareReset_eq_next {s t : State} :
    hardwareReset s = .next t ↔ s.cfg.ok = true ∧ t = s.createRegisters.fullReset := by
  unfold hardwareReset
  cases s.cfg.ok <;> simp [@eq_comm _ t]

/-- Reset of a timer goes on for an instance that exists and meets the constraints. -/
theorem timerReset_eq_next {k : Nat} {s u : State} :
    timerReset k s = .next u ↔ ∃ t, s.timers[k]? = some t ∧ t.params.ok s.cfg.tw = true ∧
      u = s.setTimer k (.created t.params) := by
  unfold timerReset
  rw [withTimer_eq_next]
  constructor
  · rintro ⟨t, ht, h⟩
    split at h <;> simp_all
  · rintro ⟨t, ht, hok, rfl⟩
    exact ⟨t, ht, by simp [hok]⟩

/-- Taking a frame fault with the default hook: the event, then the full reset. -/
theorem raise_default {s : State} (h : s.cfg.errHook = .default) (tag : FaultTag) :
    s.raise tag = (s.emit (.error tag)).fullReset :=
  errorHook_default _ h

/-- Taking a frame fault with the notify-only hook: the event alone. -/
theorem raise_notifyOnly {s : State} (h : s.cfg.errHook = .notifyOnly) (tag : FaultTag) :
    s.raise tag = s.emit (.error tag) :=
  errorHook_notifyOnly _ h

end Sys2Proof.Machine
end

