-- ==== Sys2Proof/Laws/PerInstr.lean ====
section
/-! SUPPORT. The per-instruction family `DecodedWf`: what the decoder reads from a word the ports can
carry is well formed. -/

namespace Sys2Proof.Laws

/-- A word the ports can carry: an operation on a timer that exists, its operand within `W` bits (R56),
a helper for a timer that exists. Every code and every list of codes can be offered. -/
def admissible (cfg : Config) : Word → Bool
  | .code _ _ _ => true
  | .init => true
  | .timer k _ tArg => cfg.hasTimerArg k tArg
  | .ms sel _ => cfg.hasSel sel
  | .seconds sel _ => cfg.hasSel sel
  | .minutes sel _ => cfg.hasSel sel
  | .hours sel _ => cfg.hasSel sel
  | .days sel _ => cfg.hasSel sel
  | .frame _ => true

/-- Whatever word an instruction is read from, its operands are ones its encoding admits. -/
def DecodedWf.Statement (i : Instr) : Prop :=
  ∀ (cfg : Config) (w : Word), admissible cfg w = true → decode cfg w = .ok i → i.wf cfg = true

theorem fits_chOf {cfg : Config} {raw : Byte} (h : ¬ raw < cfg.charBase) :
    cfg.fits (chOf cfg raw) = true := by
  simp only [BitVec.lt_def] at h
  have := raw.isLt
  have := cfg.charBase.isLt
  have hs : (raw - cfg.charBase).toNat = raw.toNat - cfg.charBase.toNat := by
    rw [BitVec.toNat_sub]; omega
  simp only [Config.fits, chOf, decide_eq_true_eq, hs]
  omega

theorem decodeCode_wf (cfg : Config) (side : Side) (st : DecoderState) (raw : Byte) :
    (decodeCode cfg side st raw).wf cfg = true := by
  unfold decodeCode
  split
  · simpa [Instr.wf] using ‹raw < cfg.charBase›
  · have hf := fits_chOf (cfg := cfg) ‹¬ raw < cfg.charBase›
    split
    · rename_i h
      simpa [Instr.wf] using h.1
    · unfold decodeStage3
      cases st <;> simp only
      · split <;> simp_all [Instr.wf]
      · split <;> simp_all [Instr.wf]
      · simpa [Instr.wf] using hf
      · cases side.count <;> simpa [Instr.wf] using hf
      · split <;> simpa [Instr.wf] using hf
      · split <;> simp_all [Instr.wf]

theorem hasTimer_of_arg {cfg : Config} {k arg : Nat} (h : cfg.hasTimerArg k arg = true) :
    cfg.hasTimer k = true := by
  unfold Config.hasTimerArg at h
  unfold Config.hasTimer
  split at h
  · rename_i p hp
    simpa using (List.getElem?_eq_some_iff.1 hp).1
  · cases h

theorem decodeTimer_wf {cfg : Config} {k tArg : Nat} (tOp : BitVec 3)
    (h : cfg.hasTimerArg k tArg = true) : (decodeTimer k tOp tArg).wf cfg = true := by
  have hk := hasTimer_of_arg h
  unfold decodeTimer
  split <;> simpa [Instr.wf]

theorem frameCount_toNat (lo hi : Byte) : (frameCount lo hi).toNat = lo.toNat + 256 * hi.toNat := by
  have := lo.isLt
  have := hi.isLt
  simp [frameCount, highCount, BitVec.toNat_add, BitVec.toNat_shiftLeft, Nat.shiftLeft_eq]
  omega

/-- A frame that decodes has a count of 1 to `MAX_CEILING`, that many data bytes, and codes that carry
the offset. -/
theorem decodeFrame_wf {cfg : Config} {codes : List Byte} {i : Instr}
    (h : decodeFrame cfg codes = .ok i) : i.wf cfg = true := by
  unfold decodeFrame at h
  split at h
  · cases h
  · rename_i hb
    have hfit : ∀ ch ∈ codes.map (chOf cfg), cfg.fits ch = true := by
      intro ch hch
      obtain ⟨raw, hr, rfl⟩ := List.mem_map.1 hch
      refine fits_chOf fun hlt => hb ?_
      exact List.any_eq_true.2 ⟨raw, hr, by simpa using hlt⟩
    generalize codes.map (chOf cfg) = chs at h hfit
    unfold decodeFrameCh at h
    split at h
    · rename_i d c lo hi body
      split at h
      · cases h
      split at h
      · cases h
      unfold decodeFrameBody at h
      split at h
      · cases h
      rename_i hn
      split at h
      · cases h
      rename_i hlen
      split at h
      · cases h
      cases h
      rw [frameCount_toNat] at hn hlen
      push Not at hn hlen
      have := lo.isLt
      have := hi.isLt
      have hl : body.dropLast.length = lo.toNat + 256 * hi.toNat := by simp [hlen]
      have h1 : BitVec.ofNat 8 (lo.toNat + 256 * hi.toNat) = lo :=
        BitVec.eq_of_toNat_eq (by simp only [BitVec.toNat_ofNat]; omega)
      have h2 : BitVec.ofNat 8 ((lo.toNat + 256 * hi.toNat) / 256) = hi :=
        BitVec.eq_of_toNat_eq (by simp only [BitVec.toNat_ofNat]; omega)
      have hd : ∀ x ∈ body.dropLast, cfg.fits x = true := fun x hx =>
        hfit x (by simp [List.mem_of_mem_dropLast hx])
      simp only [Instr.wf, Config.frameOk, hl, h1, h2, Bool.and_eq_true, decide_eq_true_eq,
        List.all_eq_true]
      exact ⟨⟨⟨⟨⟨by omega, hn.2⟩, by omega⟩, hfit lo (by simp)⟩, hfit hi (by simp)⟩, hd⟩
    · cases h

/-- The family's statement, word by word. -/
theorem decodedWf (i : Instr) : DecodedWf.Statement i := by
  intro cfg w hw h
  cases w with
  | code side st raw => cases h; exact decodeCode_wf cfg side st raw
  | init => cases h; rfl
  | timer k tOp tArg => cases h; exact decodeTimer_wf tOp hw
  | ms sel t => cases h; exact hw
  | seconds sel t => cases h; exact hw
  | minutes sel t => cases h; exact hw
  | hours sel t => cases h; exact hw
  | days sel t => cases h; exact hw
  | frame codes => exact decodeFrame_wf h

theorem DecodedWf.pbIgnore (raw : Byte) :
    DecodedWf.Statement (.pbIgnore raw) := decodedWf _
theorem DecodedWf.pbResync (sss : DecoderState) :
    DecodedWf.Statement (.pbResync sss) := decodedWf _
theorem DecodedWf.startMatch :
    DecodedWf.Statement (.startMatch) := decodedWf _
theorem DecodedWf.startMismatch (ch : Byte) :
    DecodedWf.Statement (.startMismatch ch) := decodedWf _
theorem DecodedWf.commandMatch :
    DecodedWf.Statement (.commandMatch) := decodedWf _
theorem DecodedWf.commandMismatch (ch : Byte) :
    DecodedWf.Statement (.commandMismatch ch) := decodedWf _
theorem DecodedWf.lowStore (ch : Byte) :
    DecodedWf.Statement (.lowStore ch) := decodedWf _
theorem DecodedWf.highZero (ch : Byte) :
    DecodedWf.Statement (.highZero ch) := decodedWf _
theorem DecodedWf.highCeil (ch : Byte) :
    DecodedWf.Statement (.highCeil ch) := decodedWf _
theorem DecodedWf.highNew (ch : Byte) :
    DecodedWf.Statement (.highNew ch) := decodedWf _
theorem DecodedWf.highSame (ch : Byte) :
    DecodedWf.Statement (.highSame ch) := decodedWf _
theorem DecodedWf.dataWrite (ch : Byte) :
    DecodedWf.Statement (.dataWrite ch) := decodedWf _
theorem DecodedWf.dataFull (ch : Byte) :
    DecodedWf.Statement (.dataFull ch) := decodedWf _
theorem DecodedWf.finishMatch :
    DecodedWf.Statement (.finishMatch) := decodedWf _
theorem DecodedWf.finishMismatch (ch : Byte) :
    DecodedWf.Statement (.finishMismatch ch) := decodedWf _
theorem DecodedWf.ctrlInit :
    DecodedWf.Statement (.ctrlInit) := decodedWf _
theorem DecodedWf.tNop (k : Nat) :
    DecodedWf.Statement (.tNop k) := decodedWf _
theorem DecodedWf.tSet (k duration : Nat) :
    DecodedWf.Statement (.tSet k duration) := decodedWf _
theorem DecodedWf.tReset (k : Nat) :
    DecodedWf.Statement (.tReset k) := decodedWf _
theorem DecodedWf.tDueBy (k extra : Nat) :
    DecodedWf.Statement (.tDueBy k extra) := decodedWf _
theorem DecodedWf.tWait (k duration : Nat) :
    DecodedWf.Statement (.tWait k duration) := decodedWf _
theorem DecodedWf.tRepeat (k duration : Nat) :
    DecodedWf.Statement (.tRepeat k duration) := decodedWf _
theorem DecodedWf.tReserved (k : Nat) (x : Bool) :
    DecodedWf.Statement (.tReserved k x) := decodedWf _
theorem DecodedWf.uMs (sel : TimerSel) (t : Nat) :
    DecodedWf.Statement (.uMs sel t) := decodedWf _
theorem DecodedWf.uSeconds (sel : TimerSel) (t : Nat) :
    DecodedWf.Statement (.uSeconds sel t) := decodedWf _
theorem DecodedWf.uMinutes (sel : TimerSel) (t : Nat) :
    DecodedWf.Statement (.uMinutes sel t) := decodedWf _
theorem DecodedWf.uHours (sel : TimerSel) (t : Nat) :
    DecodedWf.Statement (.uHours sel t) := decodedWf _
theorem DecodedWf.uDays (sel : TimerSel) (t : Nat) :
    DecodedWf.Statement (.uDays sel t) := decodedWf _
theorem DecodedWf.wireFrame (data : List Byte) :
    DecodedWf.Statement (.wireFrame data) := decodedWf _

end Sys2Proof.Laws
end

