-- ==== Sys2Proof/Laws/Step.lean ====
section
/-! SUPPORT. Once for all: what accepting an input, a timer operation, a byte step in one piece and a
whole step can do. A statement about every step is a case analysis over `step_cases`. -/

namespace Sys2Proof.Machine

/-- Whatever list of codes decodes as a frame is a `wireFrame`. -/
theorem decodeFrame_wireFrame {cfg : Config} {codes : List Byte} {i : Instr}
    (h : decodeFrame cfg codes = .ok i) : ∃ data, i = .wireFrame data := by
  unfold decodeFrame at h
  split at h
  · cases h
  unfold decodeFrameCh at h
  split at h
  · split at h
    · cases h
    split at h
    · cases h
    unfold decodeFrameBody at h
    split at h
    · cases h
    split at h
    · cases h
    split at h
    · cases h
    cases h
    exact ⟨_, rfl⟩
  · cases h

/-- A call of a unit helper. -/
def isHelper (sel : TimerSel) (t : Nat) (w : Word) : Prop :=
  w = .ms sel t ∨ w = .seconds sel t ∨ w = .minutes sel t ∨ w = .hours sel t ∨ w = .days sel t

/-- All that accepting an input can lead to. -/
theorem fetch_cases (s : State) :
    fetch s = .idle s.clearOut ∨ ∃ rest now,
      fetch s = .idle (s.take rest now) ∨
      fetch s = .reset (s.take rest now) ∨
      (∃ k, fetch s = .timerReset k (s.take rest now)) ∨
      fetch s = .word .init (s.take rest now) ∨
      (∃ raw, fetch s = .word ((s.take rest now).codeWord raw) (s.take rest now)) ∨
      (∃ k tOp tArg, fetch s = .word (.timer k tOp tArg) (s.take rest now)) ∨
      (∃ codes data, decodeFrame s.cfg codes = .ok (.wireFrame data) ∧
        fetch s = .word (.frame codes) (s.take rest now)) ∨
      (∃ sel t w, isHelper sel t w ∧ fetch s = .word w (s.take rest now)) := by
  unfold fetch
  split
  · exact .inl rfl
  · right
    rename_i rst init inValid _ now rest _
    refine ⟨rest, now, ?_⟩
    unfold fetchCycle
    cases rst <;> cases init <;> cases inValid <;> simp [inReady]
  · right
    rename_i codes now rest _
    cases codes with
    | nil => exact ⟨rest, now, .inl rfl⟩
    | cons c cs =>
      simp only [fetchLine]
      split
      · rename_i h
        refine ⟨rest, now, ?_⟩
        simp only [isFrame] at h
        cases hd : decodeFrame s.cfg (c :: cs) with
        | error e => simp [hd, Except.toOption] at h
        | ok i =>
          obtain ⟨data, rfl⟩ := decodeFrame_wireFrame hd
          exact .inr (.inr (.inr (.inr (.inr (.inr (.inl ⟨_, data, hd, rfl⟩))))))
      · exact ⟨_, now, .inr (.inr (.inr (.inr (.inl ⟨c, rfl⟩))))⟩
  · right
    rename_i k rst _ _ now rest _
    refine ⟨rest, now, ?_⟩
    cases rst <;> simp
  all_goals
    rename_i sel t rest _
    refine .inr ⟨rest, s.now, .inr (.inr (.inr (.inr (.inr (.inr (.inr
      ⟨sel, t, _, ?_, rfl⟩))))))⟩
    simp [isHelper]

/-- All that an operation on a timer's port can do: the one instance written, its parameters kept, and
the bit `due` out. -/
theorem timer_eq_next {k tArg : Nat} {tOp : BitVec 3} {s u : State}
    (h : exec (decodeTimer k tOp tArg) s = .next u) :
    ∃ t t' due, s.timers[k]? = some t ∧ t'.params = t.params ∧ u = s.timerDone k t' due := by
  unfold decodeTimer at h
  split at h <;> simp only [exec, execTNop, execTSet, execTReset, execTDueBy, execTWait, execTRepeat,
      execTReserved, withTimer_eq_next] at h <;> obtain ⟨t, h1, h2⟩ := h
  · cases h2; exact ⟨t, _, _, h1, rfl, rfl⟩
  · cases h2; exact ⟨t, t.set _ _ _, _, h1, rfl, rfl⟩
  · cases h2; exact ⟨t, t.rebase _ _, _, h1, rfl, rfl⟩
  · cases h2; exact ⟨t, _, _, h1, rfl, rfl⟩
  · split at h2 <;> cases h2
    · exact ⟨t, t.rebase _ _, _, h1, rfl, rfl⟩
    · exact ⟨t, _, _, h1, rfl, rfl⟩
  · split at h2 <;> cases h2
    · exact ⟨t, t.advance _, _, h1, rfl, rfl⟩
    · exact ⟨t, _, _, h1, rfl, rfl⟩
  · cases h2; exact ⟨t, _, _, h1, rfl, rfl⟩
  · cases h2; exact ⟨t, _, _, h1, rfl, rfl⟩

/-- A whole frame runs its codes. -/
theorem runWord_frame {s : State} {codes data : List Byte}
    (h : decodeFrame s.cfg codes = .ok (.wireFrame data)) :
    runWord (.frame codes) s = processCodes (frameCodes s.cfg data) s := by
  unfold runWord
  simp only [decode, h]
  rfl

/-- A helper's call puts one operand out. -/
theorem runWord_helper {sel : TimerSel} {t : Nat} {w : Word} {s u : State} (hw : isHelper sel t w)
    (h : runWord w s = .next u) : ∃ operand, u = s.emit (.operand operand) := by
  rcases hw with rfl | rfl | rfl | rfl | rfl <;>
  · simp only [runWord, decode, exec, execUMs, execUSeconds, execUMinutes, execUHours, execUDays,
      helper_eq_next] at h
    obtain ⟨_, _, _, rfl⟩ := h
    exact ⟨_, rfl⟩

/-- The condition of a resynchronization (R64). -/
def resyncs (raw : Byte) (s : State) : Prop :=
  s.state ≠ .start ∧ chOf s.cfg raw = s.cfg.startDelim ∧ s.idleDue = true

/-- All that the byte step in one piece can do: ignore the code; resynchronize and start; or run the
case of the state; in the last two with the code stored first and the timer touched last. -/
theorem processByte_cases {raw : Byte} {s t : State} (h : processByte raw s = .next t) :
    (raw < s.cfg.charBase ∧ t = s) ∨
    (¬ raw < s.cfg.charBase ∧ resyncs raw s ∧
      t = ((((s.storeByte (chOf s.cfg raw)).raise .resync).goto .start).goto .command).touch) ∨
    (¬ raw < s.cfg.charBase ∧ ¬ resyncs raw s ∧ ∃ u,
      processCase (chOf s.cfg raw) (s.storeByte (chOf s.cfg raw)) = .next u ∧ t = u.touch) := by
  unfold processByte at h
  split at h
  · cases h
    exact .inl ⟨‹_›, rfl⟩
  · refine .inr ?_
    rw [andThen_eq_next] at h
    obtain ⟨u, h1, h2⟩ := h
    rw [byteDone_eq_next] at h2
    subst h2
    by_cases hr : resyncs raw s
    · left
      rw [show processResync (chOf s.cfg raw) (s.storeByte (chOf s.cfg raw)) =
        ((s.storeByte (chOf s.cfg raw)).raise .resync).goto .start from if_pos hr] at h1
      refine ⟨‹_›, hr, ?_⟩
      simp [processCase, hr.2.1] at h1
      rw [← h1]
      simp [hr.2.1]
    · right
      rw [show processResync (chOf s.cfg raw) (s.storeByte (chOf s.cfg raw)) =
        s.storeByte (chOf s.cfg raw) from if_neg hr] at h1
      exact ⟨‹_›, hr, u, h1, rfl⟩

/-- All that a step can do. -/
theorem step_cases {s t : State} (h : step s = .next t) :
    t = s.clearOut ∨ ∃ rest now,
      t = s.take rest now ∨
      (s.cfg.ok = true ∧ t = (s.take rest now).createRegisters.fullReset) ∨
      (∃ k a, s.timers[k]? = some a ∧ a.params.ok s.cfg.tw = true ∧
        t = (s.take rest now).setTimer k (.created a.params)) ∨
      t = (s.take rest now).fullReset ∨
      (∃ raw, runWord ((s.take rest now).codeWord raw) (s.take rest now) = .next t) ∨
      (∃ k a a' due, s.timers[k]? = some a ∧ a'.params = a.params ∧
        t = (s.take rest now).timerDone k a' due) ∨
      (∃ codes, processCodes codes (s.take rest now) = .next t) ∨
      (∃ operand, t = (s.take rest now).emit (.operand operand)) := by
  unfold step at h
  rcases fetch_cases s with h0 | ⟨rest, now, h0 | h0 | ⟨k, h0⟩ | h0 | ⟨raw, h0⟩ | ⟨k, tOp, tArg, h0⟩ |
    ⟨codes, data, hd, h0⟩ | ⟨sel, x, w, hw, h0⟩⟩ <;> rw [h0] at h <;> simp only at h
  · cases h; exact .inl rfl
  all_goals refine .inr ⟨rest, now, ?_⟩
  · cases h; exact .inl rfl
  · rw [hardwareReset_eq_next] at h
    exact .inr (.inl h)
  · rw [timerReset_eq_next] at h
    obtain ⟨a, h1, h2, h3⟩ := h
    exact .inr (.inr (.inl ⟨k, a, h1, h2, h3⟩))
  · cases h; exact .inr (.inr (.inr (.inl rfl)))
  · exact .inr (.inr (.inr (.inr (.inl ⟨raw, h⟩))))
  · obtain ⟨a, a', due, h1, h2, h3⟩ := timer_eq_next h
    exact .inr (.inr (.inr (.inr (.inr (.inl ⟨k, a, a', due, h1, h2, h3⟩)))))
  · rw [runWord_frame (s := s.take rest now) hd] at h
    exact .inr (.inr (.inr (.inr (.inr (.inr (.inl ⟨_, h⟩))))))
  · exact .inr (.inr (.inr (.inr (.inr (.inr (.inr (runWord_helper hw h)))))))

end Sys2Proof.Machine
end

