-- ==== Sys2Proof/Machine/Ports.lean ====
section
/-! DEFINITION. The output ports of spec/10_state.md R31 as functions of the state: the events of the
last step as registered pulses (spec/70_reset_and_hazards.md R140), one port group per kind of event.
After a byte, a strobe or a timer operation each group carries at most one event (R84). DESIGN CHOICE
(log entry 20): after `WIRE.FRAME`, which is N + 5 clock edges in one step, each group shows the first
event of its kind. -/

namespace Sys2Proof.Machine

/-- `sink_cfg_valid` and `sink_cfg_count` (10 bits): the first `SinkCfg` of the step. -/
def sinkCfgPort (out : List Event) : Option (BitVec 10) :=
  out.findSome? fun e => match e with
    | .sinkCfg n => some (BitVec.ofNat 10 n)
    | _ => none

/-- `sink_wr_valid`, `sink_wr_index` (9 bits) and `sink_wr_data`: the first `SinkWrite` of the step. -/
def sinkWritePort (out : List Event) : Option (BitVec 9 × Byte) :=
  out.findSome? fun e => match e with
    | .sinkWrite i v => some (BitVec.ofNat 9 i, v)
    | _ => none

/-- `ok_pulse`: the step has put out `Accepted`. -/
def okPulse (out : List Event) : Bool :=
  out.any fun e => decide (e = .accepted)

/-- `err_pulse` and `err_tag` (8 bits, R108): the first `Error` of the step. -/
def errPort (out : List Event) : Option (BitVec 8) :=
  out.findSome? fun e => match e with
    | .error tag => some tag.code
    | _ => none

/-- `t_due` of stand-alone timer `k`: 0 where it put no bit out, in the cycle of its own reset too
(DESIGN CHOICE, log entry 21). -/
def duePort (k : Nat) (out : List Event) : Bool :=
  out.any fun e => decide (e = .due k true)

/-- The decoder's output ports. -/
structure PortsOut where
  sinkCfg : Option (BitVec 10)
  sinkWrite : Option (BitVec 9 × Byte)
  okPulse : Bool
  err : Option (BitVec 8)
  okIndicator : Bool
deriving DecidableEq, Repr

/-- The output ports in the cycle after a step. After `WIRE.FRAME` they are no one cycle of the
hardware: `sink_cfg` and `sink_wr` show the frame's first event of their kind beside `ok_pulse` (DESIGN
CHOICE, log entry 20). -/
def State.ports (s : State) : PortsOut where
  sinkCfg := sinkCfgPort s.out
  sinkWrite := sinkWritePort s.out
  okPulse := Machine.okPulse s.out
  err := errPort s.out
  okIndicator := s.okIndicator

end Sys2Proof.Machine
end

