-- ==== Sys2Proof/Tests/Slice0.lean ====
section
/-! SUPPORT. The model's own tests: the smoke tests of WellFormed; a word of every row written out from
the spec's encoding; single steps of the vectors of spec/95_test_vectors.md (the vector is named in the
comment); and a witness for the hypotheses of each statement that has some. -/

namespace Sys2Proof.Tests

open Sys2Proof Sys2Proof.Machine Sys2Proof.Claims

/-! ## Small states -/

/-- The notify-only hook on the standard configuration. -/
def quiet : Config := { Config.standard with errHook := .notifyOnly }

/-- A state of the decoder in the standard configuration: `(state, declaredChannelCount,
activeChannelCount, writeIndex, okIndicator, scheduledTime)` as the vectors write it. -/
def dec (st : DecoderState) (decl act wi : Nat) (ok : Bool) (sched : Nat) : State :=
  { State.reset with
    state := st
    declaredChannelCount := BitVec.ofNat 16 decl
    activeChannelCount := BitVec.ofNat 10 act
    writeIndex := BitVec.ofNat 10 wi
    okIndicator := ok
    alarm := ⟨⟨16, 0⟩, BitVec.ofNat 16 sched⟩
    sink := ⟨act, []⟩
    out := [] }

def withCfg (cfg : Config) (s : State) : State :=
  { s with cfg := cfg }

def withInput (i : Input) (s : State) : State :=
  { s with inputs := [i] }

/-- A state whose only timer has the register given. -/
def withTimers (p : TimerParams) (sched : Nat) (s : State) : State :=
  { s with
    cfg := { s.cfg with timers := [p] }
    timers := [⟨p, BitVec.ofNat p.w sched⟩] }

/-- One byte step. -/
def byteStep (raw : Byte) (now : Nat) (s : State) : Result :=
  step (withInput (byteInput raw now) s)

/-- One operation on the port of timer 0. -/
def timerStep (tOp : BitVec 3) (tArg now : Nat) (s : State) : Result :=
  step (withInput (.timer 0 false tOp tArg now) s)

/-- The tuple of the vectors, with the events of the step. -/
structure Seen where
  state : DecoderState
  decl : Nat
  act : Nat
  wi : Nat
  ok : Bool
  sched : Nat
  out : List Event
deriving DecidableEq, Repr

def view : Result → Option Seen
  | .next t => some ⟨t.state, t.declaredChannelCount.toNat, t.activeChannelCount.toNat,
      t.writeIndex.toNat, t.okIndicator, t.alarm.scheduledTime.toNat, t.out⟩
  | _ => none

/-- The registers of the stand-alone timers, with the events of the step. -/
def timerView : Result → Option (List Nat × List Event)
  | .next t => some (t.timers.map fun a => a.scheduledTime.toNat, t.out)
  | _ => none

/-- The refusal a step ends in. -/
def refusal : Result → Option Refusal
  | .refused r => some r
  | _ => none

/-! ## WellFormed refuses an ill-formed term, check by check -/

theorem test_wf_timer_width : TimerParams.ok 32 ⟨1, 0⟩ = false := by decide
theorem test_wf_timer_too_wide : TimerParams.ok 32 ⟨16, 17⟩ = false := by decide
theorem test_wf_start_delimiter :
    Config.ok { Config.standard with charBase := 0x82 } = false := by decide
theorem test_wf_send_command :
    Config.ok { Config.standard with charBase := 0x01, sendCommand := 0xFF, finishDelim := 0x01 }
      = false := by decide
theorem test_wf_finish_delimiter :
    Config.ok { Config.standard with charBase := 0x19 } = false := by decide
theorem test_wf_idle_timeout :
    Config.ok { Config.standard with idleTimeout := 32768 } = false := by decide
theorem test_wf_ceiling : Config.ok { Config.standard with maxCeiling := 513 } = false := by decide
theorem test_wf_alarm : Config.ok { Config.standard with tw := 15, timers := [] } = false := by decide
theorem test_wf_timers :
    Config.ok { Config.standard with timers := [⟨16, 17⟩] } = false := by decide
theorem test_wf_configurations : Config.standard.ok = true ∧ Config.alternate.ok = true := by decide
theorem test_wf_ignore : (Instr.pbIgnore 0x20).wf .alternate = false := by decide
theorem test_wf_resync : (Instr.pbResync .start).wf .standard = false := by decide
theorem test_wf_start_mismatch : (Instr.startMismatch 0x7E).wf .standard = false := by decide
theorem test_wf_command_mismatch : (Instr.commandMismatch 0x06).wf .standard = false := by decide
theorem test_wf_finish_mismatch : (Instr.finishMismatch 0xE7).wf .standard = false := by decide
theorem test_wf_code : (Instr.lowStore 0xE0).wf .alternate = false := by decide
theorem test_wf_no_timer : (Instr.tReset 1).wf .standard = false := by decide
theorem test_wf_operand : (Instr.tSet 0 65536).wf .standard = false := by decide
theorem test_wf_operand_no_timer : (Instr.tWait 1 0).wf .standard = false := by decide
theorem test_wf_helper : (Instr.uMs (.standalone 1) 0).wf .standard = false := by decide
theorem test_wf_frame_empty : (Instr.wireFrame []).wf .standard = false := by decide
theorem test_wf_frame_ceiling :
    (Instr.wireFrame [0, 1, 2]).wf { Config.standard with maxCeiling := 2 } = false := by decide
theorem test_wf_frame_value : (Instr.wireFrame [0xE0]).wf .alternate = false := by decide

/-! ## Words written out from the encodings of spec/30_encoding.md -/

/-- R54: in the alternate configuration raw 0x1F is `raw[7:5] = 0b000`. -/
theorem test_decode_ignore :
    decodeCode .alternate ⟨true, .zero, false⟩ .data 0b00011111 = .pbIgnore 0x1F := by decide
/-- R54: key `sss 01111110`, `sss` not `000`, idle timer due. -/
theorem test_decode_resync :
    decodeTableWord 16 0b01001111110 = some (.pbResync .lowChannel) := by decide
/-- The same key with the timer not due goes to stage 3. -/
theorem test_decode_no_resync :
    decodeCode .standard ⟨false, .zero, false⟩ .lowChannel 0b01111110 = .lowStore 0x7E := by decide
theorem test_decode_start_match : decodeTableWord 16 0b00001111110 = some .startMatch := by decide
theorem test_decode_start_mismatch :
    decodeTableWord 16 0b00011100111 = some (.startMismatch 0xE7) := by decide
theorem test_decode_command_match : decodeTableWord 16 0b00100000110 = some .commandMatch := by decide
theorem test_decode_command_mismatch :
    decodeTableWord 16 0b00100000111 = some (.commandMismatch 0x07) := by decide
theorem test_decode_low : decodeTableWord 16 0b01011111111 = some (.lowStore 0xFF) := by decide
theorem test_decode_high_zero : decodeTableWord 16 0b01100000000 = some (.highZero 0) := by decide
theorem test_decode_high_ceil : decodeTableWord 16 0b01100000011 = some (.highCeil 3) := by decide
theorem test_decode_high_new : decodeTableWord 16 0b01100000010 = some (.highNew 2) := by decide
theorem test_decode_high_same :
    decodeCode .standard ⟨true, .same, false⟩ .highChannel 0b00000010 = .highSame 2 := by decide
theorem test_decode_data_write :
    decodeCode .standard ⟨true, .zero, false⟩ .data 0b11100111 = .dataWrite 0xE7 := by decide
theorem test_decode_data_full : decodeTableWord 16 0b10010100101 = some (.dataFull 0xA5) := by decide
theorem test_decode_finish_match : decodeTableWord 16 0b10111100111 = some .finishMatch := by decide
theorem test_decode_finish_mismatch :
    decodeTableWord 16 0b10100000000 = some (.finishMismatch 0) := by decide
theorem test_decode_init : decodeTableWord 1 0b1 = some .ctrlInit := by decide
theorem test_decode_nop : decodeTimer 0 0b000 9 = .tNop 0 := by decide
theorem test_decode_set : decodeTimer 0 0b001 10 = .tSet 0 10 := by decide
theorem test_decode_reset : decodeTimer 3 0b010 10 = .tReset 3 := by decide
theorem test_decode_due_by : decodeTimer 0 0b011 10 = .tDueBy 0 10 := by decide
theorem test_decode_wait : decodeTimer 0 0b100 10 = .tWait 0 10 := by decide
theorem test_decode_repeat : decodeTimer 0 0b101 10 = .tRepeat 0 10 := by decide
theorem test_decode_reserved_6 : decodeTimer 0 0b110 10 = .tReserved 0 false := by decide
theorem test_decode_reserved_7 : decodeTimer 0 0b111 10 = .tReserved 0 true := by decide
/-- The helpers have no bits (R57): the call itself is the word. -/
theorem test_decode_helpers :
    (decode .standard (.ms .decoder 1)).toOption = some (.uMs .decoder 1) ∧
    (decode .standard (.seconds .decoder 2)).toOption = some (.uSeconds .decoder 2) ∧
    (decode .standard (.minutes .decoder 3)).toOption = some (.uMinutes .decoder 3) ∧
    (decode .standard (.hours (.standalone 0) 4)).toOption = some (.uHours (.standalone 0) 4) ∧
    (decode .standard (.days (.standalone 0) 5)).toOption = some (.uDays (.standalone 0) 5) := by
  decide
/-- EX1's eight bytes (R49). -/
theorem test_decode_frame :
    (decodeFrame .standard [0x7E, 0x06, 0x03, 0x00, 0x11, 0x22, 0x33, 0xE7]).toOption =
      some (.wireFrame [0x11, 0x22, 0x33]) := by decide
/-- R59's typed frame `SC# abcF`. -/
theorem test_decode_typed_frame :
    (decodeFrame .alternate [0x53, 0x43, 0x23, 0x20, 0x61, 0x62, 0x63, 0x46]).toOption =
      some (.wireFrame [0x41, 0x42, 0x43]) := by decide
/-- A reserved `state` code (R20) is no key, and a frame one byte short is no frame. -/
theorem test_decode_refuses :
    decodeTableWord 16 0b11000000000 = none ∧
    (decodeFrame .standard [0x7E, 0x06, 0x02, 0x00, 0x11, 0xE7]).toOption = none := by decide

/-! ## Single steps -/

/-- R128, R35: the reset cycle from any state gives the registers of `State.reset`. -/
theorem test_reset_cycle :
    view (step (withInput (.cycle true true true 0x7E 0) (dec .data 3 3 2 true 77))) =
      some ⟨.start, 0, 0, 0, false, 0, [.sinkCfg 0]⟩ ∧
    view (.next State.reset) = some ⟨.start, 0, 0, 0, false, 0, [.sinkCfg 0]⟩ := by decide
/-- V1 -/
theorem test_start_match :
    view (byteStep 0x7E 9 (dec .start 0 0 0 false 0)) =
      some ⟨.command, 0, 0, 0, false, 9, []⟩ := by decide
/-- V2 -/
theorem test_start_mismatch :
    view (byteStep 0x00 9 (dec .start 3 3 3 true 8)) =
      some ⟨.start, 3, 0, 0, false, 9, [.error .mismatch, .sinkCfg 0]⟩ := by decide
/-- V4 -/
theorem test_command_match :
    view (byteStep 0x06 9 (dec .command 0 0 0 false 8)) =
      some ⟨.lowChannel, 0, 0, 0, false, 9, []⟩ := by decide
/-- V5: the byte is consumed. -/
theorem test_command_mismatch :
    view (byteStep 0x7E 9 (dec .command 0 0 0 false 8)) =
      some ⟨.start, 0, 0, 0, false, 9, [.error .mismatch, .sinkCfg 0]⟩ := by decide
/-- V7 -/
theorem test_low_store :
    view (byteStep 0xFF 9 (dec .lowChannel 0x0201 0 0 false 8)) =
      some ⟨.highChannel, 0xFF, 0, 0, false, 9, []⟩ := by decide
/-- V9: refused although the count is unchanged. -/
theorem test_high_zero :
    view (byteStep 0x00 9 (dec .highChannel 0 0 0 false 8)) =
      some ⟨.start, 0, 0, 0, false, 9, [.error .zero, .sinkCfg 0]⟩ := by decide
/-- V32 -/
theorem test_high_zero_notify_only :
    view (byteStep 0x00 9 (withCfg quiet (dec .highChannel 0 0 0 false 8))) =
      some ⟨.data, 0, 0, 0, false, 9, [.error .zero]⟩ := by decide
/-- V10 -/
theorem test_high_ceil :
    view (byteStep 0x02 9 (dec .highChannel 1 0 0 false 8)) =
      some ⟨.start, 513, 0, 0, false, 9, [.error .ceiling, .sinkCfg 0]⟩ := by decide
/-- V33 -/
theorem test_high_ceil_notify_only :
    view (byteStep 0x02 9 (withCfg quiet (dec .highChannel 1 2 2 true 8))) =
      some ⟨.data, 513, 2, 0, true, 9, [.error .ceiling]⟩ := by decide
/-- V12: the largest count. -/
theorem test_high_new :
    view (byteStep 0x02 9 (dec .highChannel 0 0 0 false 8)) =
      some ⟨.data, 512, 512, 0, false, 9, [.sinkCfg 512]⟩ := by decide
/-- V15 -/
theorem test_high_same :
    view (byteStep 0x00 9 (dec .highChannel 3 3 3 false 8)) =
      some ⟨.data, 3, 3, 0, false, 9, []⟩ := by decide
/-- V17: a finish delimiter is data while channels are missing. -/
theorem test_data_write :
    view (byteStep 0xE7 9 (dec .data 3 3 2 false 8)) =
      some ⟨.data, 3, 3, 3, false, 9, [.sinkWrite 2 0xE7]⟩ := by decide
/-- The byte staged, and no other. -/
theorem test_data_write_channel :
    (match byteStep 0xE7 9 (dec .data 3 3 2 false 8) with
      | .next t => [t.channel 1, t.channel 2, t.channel 3]
      | _ => []) = [none, some 0xE7, none] := by decide
/-- V18 -/
theorem test_data_full_accepts :
    view (byteStep 0xE7 9 (dec .data 3 3 3 false 8)) =
      some ⟨.start, 3, 3, 3, true, 9, [.accepted]⟩ := by decide
/-- V19: a gap of 5. -/
theorem test_data_full_mismatch :
    view (byteStep 0x7E 13 (dec .data 3 3 3 false 8)) =
      some ⟨.start, 3, 0, 0, false, 13, [.error .mismatch, .sinkCfg 0]⟩ := by decide
/-- V30 -/
theorem test_finish_match :
    view (byteStep 0xE7 9 (dec .finish 3 3 3 false 8)) =
      some ⟨.start, 3, 3, 3, true, 9, [.accepted]⟩ := by decide
/-- V31 -/
theorem test_finish_mismatch :
    view (byteStep 0x00 9 (dec .finish 3 3 3 true 8)) =
      some ⟨.start, 3, 0, 0, false, 9, [.error .mismatch, .sinkCfg 0]⟩ := by decide
/-- V21 -/
theorem test_ignore :
    view (byteStep 0x0A 99 (withCfg .alternate (dec .data 2 2 1 false 4))) =
      some ⟨.data, 2, 2, 1, false, 4, []⟩ := by decide
/-- V22 and V23: gaps of 200 and of 199. -/
theorem test_resync :
    view (byteStep 0x7E 225 (dec .data 4 4 2 false 25)) =
      some ⟨.command, 4, 0, 0, false, 225, [.error .resync, .sinkCfg 0]⟩ ∧
    view (byteStep 0x7E 224 (dec .data 4 4 2 false 25)) =
      some ⟨.data, 4, 4, 3, false, 224, [.sinkWrite 2 0x7E]⟩ := by decide
/-- V27, V28 and V29: the window's end, and a wrap of the time source. -/
theorem test_resync_window :
    view (byteStep 0x7E 32969 (dec .command 0 0 0 false 1)) =
      some ⟨.start, 0, 0, 0, false, 32969, [.error .mismatch, .sinkCfg 0]⟩ ∧
    view (byteStep 0x7E 32968 (dec .command 0 0 0 false 1)) =
      some ⟨.command, 0, 0, 0, false, 32968, [.error .resync, .sinkCfg 0]⟩ ∧
    view (byteStep 0x7E 0x00000010 (dec .command 0 0 0 false 0xFF10)) =
      some ⟨.command, 0, 0, 0, false, 0x0010, [.error .resync, .sinkCfg 0]⟩ := by decide
/-- V36 -/
theorem test_init :
    view (step (withInput (.cycle false true false 0 500) (dec .data 3 3 2 true 1))) =
      some ⟨.start, 3, 0, 0, false, 500, [.sinkCfg 0]⟩ := by decide
/-- P1's first frame, in one operation. -/
theorem test_frame :
    view (step (withInput (.line [0x7E, 0x06, 0x02, 0x00, 0xAA, 0xBB, 0xE7] 60)
        (dec .start 0 0 0 false 0))) =
      some ⟨.start, 2, 2, 2, true, 60,
        [.sinkCfg 2, .sinkWrite 0 0xAA, .sinkWrite 1 0xBB, .accepted]⟩ := by decide
/-- R108's codes at the port. -/
theorem test_error_port :
    [errPort [.error .mismatch], errPort [.error .resync], errPort [.error .zero],
      errPort [.error .ceiling], errPort [.accepted]] =
      [some 0x4D, some 0x52, some 0x30, some 0x43, none] := by decide
/-- TM1a, TM1d and TM1e. -/
theorem test_coarsen :
    coarsen 32 ⟨16, 4⟩ 0x12345678 = 0x4567 ∧ coarsen 32 ⟨8, 10⟩ 1023 = 0 ∧
    coarsen 32 ⟨8, 10⟩ 1024 = 1 := by decide
/-- R91's example: the sum wraps. -/
theorem test_timer_set :
    timerView (timerStep 0b001 10 65530 State.reset) = some ([4], [.due 0 false]) := by decide
/-- R92's example. -/
theorem test_timer_reset :
    timerView (timerStep 0b010 5 1234 State.reset) = some ([1234], [.due 0 false]) := by decide
/-- TM2a and TM2b. -/
theorem test_timer_due_by :
    timerView (timerStep 0b011 0x20 0x0010 (withTimers ⟨16, 0⟩ 0xFFF0 State.reset)) =
      some ([0xFFF0], [.due 0 true]) ∧
    timerView (timerStep 0b011 0x20 0x000F (withTimers ⟨16, 0⟩ 0xFFF0 State.reset)) =
      some ([0xFFF0], [.due 0 false]) := by decide
/-- TM5's first and fourth rows. -/
theorem test_timer_wait :
    timerView (timerStep 0b100 50 149 (withTimers ⟨16, 0⟩ 100 State.reset)) =
      some ([100], [.due 0 false]) ∧
    timerView (timerStep 0b100 50 209 (withTimers ⟨16, 0⟩ 150 State.reset)) =
      some ([209], [.due 0 true]) := by decide
/-- TM6's fifth and seventh rows. -/
theorem test_timer_repeat :
    timerView (timerStep 0b101 50 330 (withTimers ⟨16, 0⟩ 200 State.reset)) =
      some ([250], [.due 0 true]) ∧
    timerView (timerStep 0b101 50 332 (withTimers ⟨16, 0⟩ 300 State.reset)) =
      some ([300], [.due 0 false]) := by decide
/-- TM7 -/
theorem test_timer_nop_reserved :
    timerView (timerStep 0b000 9 500 (withTimers ⟨16, 0⟩ 77 State.reset)) =
      some ([77], [.due 0 false]) ∧
    timerView (timerStep 0b110 9 500 (withTimers ⟨16, 0⟩ 77 State.reset)) =
      some ([77], [.due 0 false]) ∧
    timerView (timerStep 0b111 9 500 (withTimers ⟨16, 0⟩ 77 State.reset)) =
      some ([77], [.due 0 false]) := by decide
/-- TM8, with `S` as the row has it. -/
theorem test_helpers :
    timerView (execUMs (.standalone 0) 17 (withTimers ⟨16, 4⟩ 0 (dec .start 0 0 0 false 0))) =
      some ([0], [.operand 2]) ∧
    timerView (execUSeconds (.standalone 0) 1 (withTimers ⟨16, 4⟩ 0 (dec .start 0 0 0 false 0))) =
      some ([0], [.operand 63]) ∧
    timerView (execUMinutes (.standalone 0) 1 (withTimers ⟨16, 10⟩ 0 (dec .start 0 0 0 false 0))) =
      some ([0], [.operand 59]) ∧
    timerView (execUHours (.standalone 0) 1 (withTimers ⟨16, 10⟩ 0 (dec .start 0 0 0 false 0))) =
      some ([0], [.operand 3516]) ∧
    timerView (execUDays (.standalone 0) 1 (withTimers ⟨16, 16⟩ 0 (dec .start 0 0 0 false 0))) =
      some ([0], [.operand 1319]) := by decide
/-- TM8's last row. -/
theorem test_helper_refused :
    refusal (execUDays (.standalone 0) 25 (withTimers ⟨16, 16⟩ 0 State.reset)) =
      some .aboveHorizon := by decide
/-- A timer that does not exist (log entry 10). -/
theorem test_no_timer :
    refusal (step (withInput (.timer 1 false 0b001 5 0) State.reset)) = some .noSuchTimer := by decide
/-- A word of the table placed after reset is the next operation. -/
theorem test_fetch_word :
    view (step (State.reset.withFetchWord 16 0x2A5)) =
      some ⟨.highChannel, 0xA5, 0, 0, false, 200, []⟩ ∧
    timerView (step (State.reset.withFetchWord 8 0b011)) = some ([0], [.due 0 true]) := by decide

/-! ## Witnesses

For each statement with hypotheses, a state and operands that meet all of them together, clause by
clause; at both ends of the range where a clause has one. -/

/-- A wide timer, on which a helper of every unit has operands inside and outside the horizon. -/
def wide : State :=
  withTimers ⟨16, 16⟩ 0 State.reset

/-- A state with three channels configured, in the middle of the data. -/
def midFrame : State :=
  { dec .data 3 3 2 true 8 with sink := ⟨3, [(0, 0x11), (1, 0x22)]⟩ }

theorem witness_step_runs_decoded :
    (∃ w t i, fetch (withInput (byteInput 0x7E 5) State.reset) = .word w t ∧
      decode t.cfg w = .ok i) ∧
    (withInput (byteInput 0x7E 5) State.reset).inputs = [byteInput 0x7E 5] ∧
    (withInput (.cycle false true false 0 5) State.reset).inputs = [.cycle false true false 0 5] ∧
    (withInput (.timer 0 false 0b111 5 5) State.reset).inputs = [.timer 0 false 0b111 5 5] ∧
    (withInput (.ms .decoder 5) State.reset).inputs = [.ms .decoder 5] ∧
    (withInput (.seconds .decoder 5) State.reset).inputs = [.seconds .decoder 5] ∧
    (withInput (.minutes .decoder 5) State.reset).inputs = [.minutes .decoder 5] ∧
    (withInput (.hours .decoder 5) State.reset).inputs = [.hours .decoder 5] ∧
    (withInput (.days .decoder 5) State.reset).inputs = [.days .decoder 5] ∧
    (withInput (.line [0x7E, 0x06, 0x01, 0x00, 0xFF, 0xE7] 5) State.reset).inputs =
      [.line [0x7E, 0x06, 0x01, 0x00, 0xFF, 0xE7] 5] ∧
    decodeFrame State.reset.cfg [0x7E, 0x06, 0x01, 0x00, 0xFF, 0xE7] = .ok (.wireFrame [0xFF]) :=
  ⟨⟨_, _, _, rfl, rfl⟩, rfl, rfl, rfl, rfl, rfl, rfl, rfl, rfl, rfl, rfl⟩

/-- A line that is no frame: the header alone; and the empty line. -/
theorem witness_line_no_frame :
    (withInput (.line [0x7E, 0x06, 0x01] 5) State.reset).inputs = [.line [0x7E, 0x06, 0x01] 5] ∧
    (∀ i, decodeFrame State.reset.cfg [0x7E, 0x06, 0x01] ≠ .ok i) ∧
    (withInput (.line [] 5) State.reset).inputs = [.line [] 5] :=
  ⟨rfl, fun _ h => (by cases h), rfl⟩

/-- R60: the codes of a line in their order, all at the line's sample, before what follows it. -/
theorem test_line_in_order :
    (match step { State.reset with
        inputs := [.line [0x7E, 0x06, 0x01] 5, byteInput 0x00 9] } with
      | .next t => some (t.state, t.inputs)
      | _ => none) =
    some (.command, [byteInput 0x06 5, byteInput 0x01 5, byteInput 0x00 9]) := by decide

theorem witness_no_input :
    State.reset.inputs = [] ∧
    (withInput (.cycle false false false 0x7E 5) State.reset).inputs =
      [.cycle false false false 0x7E 5] := by decide

theorem witness_strobes :
    (withInput (.cycle true true true 0x7E 5) State.reset).inputs = [.cycle true true true 0x7E 5] ∧
    (withInput (.cycle false true true 0x7E 5) State.reset).inputs =
      [.cycle false true true 0x7E 5] := by decide

theorem witness_decode_encode_standard :
    Config.standard.ok = true ∧ (Instr.pbResync .data).wf .standard = true ∧
    Instr.startMatch.wf .standard = true ∧ (Instr.startMismatch 0xFF).wf .standard = true ∧
    (Instr.highSame 2).wf .standard = true ∧ (Instr.finishMismatch 0).wf .standard = true ∧
    Instr.ctrlInit.wf .standard = true ∧ (Instr.tSet 0 65535).wf .standard = true ∧
    (Instr.tReserved 0 true).wf .standard = true ∧
    (Instr.uDays (.standalone 0) 9).wf .standard = true ∧
    (Instr.wireFrame [0x7E]).wf .standard = true := by decide

theorem witness_decode_encode_alternate :
    Config.alternate.ok = true ∧ (Instr.pbIgnore 0x1F).wf .alternate = true ∧
    (Instr.lowStore 0xDF).wf .alternate = true ∧
    (Instr.wireFrame [0x00, 0xDF]).wf .alternate = true := by decide

theorem witness_key :
    decode .standard (.code ⟨true, .new, false⟩ .highChannel 0x02) = .ok (.highNew 0x02) ∧
    keyRow (.highNew 0x02) = some (0x300, 0x700) := ⟨rfl, rfl⟩

theorem witness_count :
    (∃ t u, exec (.lowStore 0x00) State.reset = .next t ∧ exec (.highZero 0x00) t = .next u) ∧
    (∃ t u, exec (.lowStore 0xFF) State.reset = .next t ∧ exec (.highCeil 0xFF) t = .next u) ∧
    (∃ t u, exec (.lowStore 0x01) State.reset = .next t ∧ exec (.highNew 0x00) t = .next u) ∧
    (∃ t u, exec (.lowStore 0x03) midFrame = .next t ∧ exec (.highSame 0x00) t = .next u) :=
  ⟨⟨_, _, rfl, rfl⟩, ⟨_, _, rfl, rfl⟩, ⟨_, _, rfl, rfl⟩, ⟨_, _, rfl, rfl⟩⟩

theorem witness_hardware_reset :
    midFrame.cfg.ok = true ∧
    (withInput (.cycle true false true 0x7E 5) midFrame).inputs = [.cycle true false true 0x7E 5] ∧
    midFrame.timers[0]? = some ⟨⟨16, 0⟩, 0⟩ ∧
    TimerParams.ok midFrame.cfg.tw ⟨16, 0⟩ = true ∧
    (withInput (.timer 0 true 0b001 7 5) midFrame).inputs = [.timer 0 true 0b001 7 5] := by decide

theorem witness_bad_configuration :
    (withCfg { Config.standard with maxCeiling := 513 } State.reset).cfg.ok = false ∧
    (withInput (.cycle true false false 0 5) State.reset).inputs = [.cycle true false false 0 5] := by
  decide

theorem witness_frame_fault :
    State.reset.cfg.errHook = .default ∧ (withCfg quiet State.reset).cfg.errHook = .notifyOnly := by
  decide

theorem witness_errors_clear :
    midFrame.cfg.errHook = .default ∧
    (∃ t, byteStep 0x7E 208 midFrame = .next t ∧ .error .resync ∈ t.out) ∧
    (∃ t, byteStep 0x00 9 (dec .start 3 3 3 true 8) = .next t ∧ .error .mismatch ∈ t.out) ∧
    (∃ t, byteStep 0x00 9 (dec .highChannel 0 3 3 true 8) = .next t ∧ .error .zero ∈ t.out) ∧
    (∃ t, byteStep 0x02 9 (dec .highChannel 1 3 3 true 8) = .next t ∧ .error .ceiling ∈ t.out) :=
  ⟨rfl, ⟨_, rfl, by decide⟩, ⟨_, rfl, by decide⟩, ⟨_, rfl, by decide⟩, ⟨_, rfl, by decide⟩⟩

theorem witness_notify_only_keeps :
    (withCfg quiet midFrame).cfg.errHook = .notifyOnly ∧
    (∃ t, byteStep 0x7E 208 (withCfg quiet midFrame) = .next t ∧ .error .resync ∈ t.out) ∧
    (∃ t, byteStep 0x02 9 (withCfg quiet (dec .highChannel 1 3 3 true 8)) = .next t ∧
      .error .ceiling ∈ t.out) :=
  ⟨rfl, ⟨_, rfl, by decide⟩, ⟨_, rfl, by decide⟩⟩

theorem witness_ignored :
    (0x1F : Byte) < Config.alternate.charBase ∧
    (withInput (byteInput 0x1F 5) (withCfg .alternate midFrame)).inputs = [byteInput 0x1F 5] := by
  decide

theorem witness_resync :
    Config.alternate.charBase ≤ 0x53 ∧ DecoderState.finish ≠ .start ∧
    chOf .alternate 0x53 = Config.alternate.startDelim ∧ (Side.mk true .zero false).due = true := by
  decide

theorem witness_start_command_match :
    (AtStage3 .standard Side.any .start 0x7E ∧ chOf .standard 0x7E = Config.standard.startDelim) ∧
    (AtStage3 .alternate Side.any .command 0x43 ∧
      chOf .alternate 0x43 = Config.alternate.sendCommand) := by
  unfold AtStage3; decide

theorem witness_mismatch :
    (AtStage3 .standard Side.any .start 0x7D ∧ chOf .standard 0x7D ≠ Config.standard.startDelim) ∧
    (AtStage3 .standard Side.any .command 0x7E ∧
      chOf .standard 0x7E ≠ Config.standard.sendCommand) ∧
    (AtStage3 .standard Side.any .finish 0x00 ∧
      chOf .standard 0x00 ≠ Config.standard.finishDelim) := by
  unfold AtStage3; decide

theorem witness_low_store : AtStage3 .standard Side.any .lowChannel 0x7E := by
  unfold AtStage3; decide

/-- The four rows of `HighChannel`: counts 0, 513, 1 and 512, and 3 again. -/
theorem witness_high_rows :
    (AtStage3 .standard ((dec .highChannel 0 3 3 true 8).sideOf 0x00) .highChannel 0x00 ∧
      completed (dec .highChannel 0 3 3 true 8) 0x00 = 0) ∧
    (AtStage3 .standard ((dec .highChannel 1 3 3 true 8).sideOf 0x02) .highChannel 0x02 ∧
      completed (dec .highChannel 1 3 3 true 8) 0x02 ≠ 0 ∧
      512 < (completed (dec .highChannel 1 3 3 true 8) 0x02).toNat) ∧
    (AtStage3 .standard ((dec .highChannel 1 3 3 true 8).sideOf 0x00) .highChannel 0x00 ∧
      1 ≤ (completed (dec .highChannel 1 3 3 true 8) 0x00).toNat ∧
      (completed (dec .highChannel 1 3 3 true 8) 0x00).toNat ≤ 512 ∧
      (completed (dec .highChannel 1 3 3 true 8) 0x00).toNat ≠
        (dec .highChannel 1 3 3 true 8).activeChannelCount.toNat) ∧
    (1 ≤ (completed (dec .highChannel 0 3 3 true 8) 0x02).toNat ∧
      (completed (dec .highChannel 0 3 3 true 8) 0x02).toNat ≤ 512 ∧
      (completed (dec .highChannel 0 3 3 true 8) 0x02).toNat ≠
        (dec .highChannel 0 3 3 true 8).activeChannelCount.toNat) ∧
    (AtStage3 .standard ((dec .highChannel 3 3 3 true 8).sideOf 0x00) .highChannel 0x00 ∧
      completed (dec .highChannel 3 3 3 true 8) 0x00 ≠ 0 ∧
      (completed (dec .highChannel 3 3 3 true 8) 0x00).toNat ≤ 512 ∧
      (completed (dec .highChannel 3 3 3 true 8) 0x00).toNat =
        (dec .highChannel 3 3 3 true 8).activeChannelCount.toNat) := by
  unfold AtStage3; decide

theorem witness_new_count_refused :
    512 < (completed (dec .highChannel 1 3 3 true 8) 0x02).toNat := by decide

theorem witness_data_write :
    AtStage3 .standard (midFrame.sideOf 0xE7) .data 0xE7 ∧
    midFrame.writeIndex < midFrame.activeChannelCount ∧
    midFrame.writeIndex.toNat < midFrame.sink.count ∧
    (dec .data 3 3 3 true 8).sink.count ≤ (dec .data 3 3 3 true 8).writeIndex.toNat := by
  unfold AtStage3; decide

theorem witness_data_full :
    AtStage3 .standard ((dec .data 3 3 3 true 8).sideOf 0xE7) .data 0xE7 ∧
    (dec .data 3 3 3 true 8).writeIndex = (dec .data 3 3 3 true 8).activeChannelCount ∧
    (0xE7 : Byte) = (dec .data 3 3 3 true 8).cfg.finishDelim ∧
    (0x7E : Byte) ≠ (dec .data 3 3 3 true 8).cfg.finishDelim := by
  unfold AtStage3; decide

theorem witness_finish_match :
    AtStage3 .standard Side.any .finish 0xE7 ∧
    chOf .standard 0xE7 = Config.standard.finishDelim := by
  unfold AtStage3; decide

theorem witness_non_storing :
    (∃ t, exec (.pbIgnore 0x0A) midFrame = .next t) ∧ (∃ t, exec .startMatch midFrame = .next t) ∧
    (∃ t, exec .commandMatch midFrame = .next t) ∧ (∃ t, exec (.lowStore 9) midFrame = .next t) ∧
    (∃ t, exec (.highSame 0) midFrame = .next t) ∧ (∃ t, exec .finishMatch midFrame = .next t) :=
  ⟨⟨_, rfl⟩, ⟨_, rfl⟩, ⟨_, rfl⟩, ⟨_, rfl⟩, ⟨_, rfl⟩, ⟨_, rfl⟩⟩

theorem witness_due_window :
    (0 < 8 ∧ -(2 ^ (8 - 1)) ≤ (-128 : Int) ∧ (-128 : Int) < 2 ^ (8 - 1)) ∧
    (0 < 8 ∧ -(2 ^ (8 - 1)) ≤ (127 : Int) ∧ (127 : Int) < 2 ^ (8 - 1)) := by decide

theorem witness_coarsen : (TimerParams.mk 16 16).w + (TimerParams.mk 16 16).s ≤ 32 := by decide

/-- The premise of the statements about one operation of a timer. -/
theorem witness_timer : State.reset.timers[0]? = some ⟨⟨16, 0⟩, 0⟩ := by decide

/-- At the edge: due at a sample equal to the target, not due one tick before. -/
theorem witness_wait_repeat :
    (withTimers ⟨16, 0⟩ 100 State.reset).timers[0]? = some ⟨⟨16, 0⟩, 100⟩ ∧
    dueBy (coarsen 32 ⟨16, 0⟩ { withTimers ⟨16, 0⟩ 100 State.reset with now := 150 }.now) 100
      (BitVec.ofNat 16 50) = true ∧
    dueBy (coarsen 32 ⟨16, 0⟩ { withTimers ⟨16, 0⟩ 100 State.reset with now := 149 }.now) 100
      (BitVec.ofNat 16 50) = false := by decide

theorem witness_set_due :
    State.reset.timers[0]? = some ⟨⟨16, 0⟩, 0⟩ ∧ 0 < 16 ∧ 32767 ≤ horizon 16 ∧
    (∃ t, exec (.tSet 0 32767) State.reset = .next t) ∧
    (coarsen 32 ⟨16, 0⟩ 65534 - coarsen 32 ⟨16, 0⟩ 0).toNat < 32767 + 2 ^ (16 - 1) :=
  ⟨rfl, by decide, by decide, ⟨_, rfl⟩, by decide⟩

theorem witness_reset_timer_due :
    0 < (AlarmTimer.created ⟨16, 0⟩).params.w ∧ 1 ≤ 1 ∧
    32768 ≤ 2 ^ ((AlarmTimer.created ⟨16, 0⟩).params.w - 1) := by decide

theorem witness_repeat_never_drifts :
    State.reset.timers[0]? = some ⟨⟨16, 0⟩, 0⟩ ∧
    ∃ t, repeatAt 0 50 [50, 60, 330, 331] State.reset = .next t :=
  ⟨rfl, ⟨_, rfl⟩⟩

theorem witness_isolation :
    (∃ t, step (withInput (byteInput 0x7E 5) State.reset) = .next t) ∧
    (byteInput 0x7E 5).forDecoder = true ∧
    (∃ t, step (withInput (.timer 0 false 0b001 5 5) State.reset) = .next t) ∧
    SameButDecoder (withInput (.timer 0 false 0b001 5 5) State.reset)
      { withInput (.timer 0 false 0b001 5 5) State.reset with
        state := .data, writeIndex := 1, activeChannelCount := 2, sink := ⟨2, [(0, 0x33)]⟩ } ∧
    [⟨⟨16, 0⟩, 0⟩, ⟨⟨8, 2⟩, 9⟩][0]? = State.reset.timers[0]? :=
  ⟨⟨_, rfl⟩, rfl, ⟨_, rfl⟩, rfl, rfl⟩

/-- The largest and the least operand of each unit, on a timer with `W` = 16 and `S` = 16. -/
theorem witness_helpers :
    wide.paramsOf (.standalone 0) = some ⟨16, 16⟩ ∧
    up 16 (2147418112 * 1) ≤ horizon 16 ∧ horizon 16 < up 16 (2147418113 * 1) ∧
    up 16 (2147418 * 1000 * 1) ≤ horizon 16 ∧ horizon 16 < up 16 (2147419 * 1000 * 1) ∧
    up 16 (35790 * 60000 * 1) ≤ horizon 16 ∧ horizon 16 < up 16 (35791 * 60000 * 1) ∧
    up 16 (596 * 3600000 * 1) ≤ horizon 16 ∧ horizon 16 < up 16 (597 * 3600000 * 1) ∧
    up 16 (24 * 86400000 * 1) ≤ horizon 16 ∧ horizon 16 < up 16 (25 * 86400000 * 1) ∧
    wide.cfg.ticksPerMs = 1 := by decide

theorem witness_invariant :
    (withInput (byteInput 0x33 9) midFrame).Inv ∧
    (∃ t, step (withInput (byteInput 0x33 9) midFrame) = .next t) :=
  ⟨by unfold State.Inv; decide, ⟨_, rfl⟩⟩

theorem witness_run :
    ∃ t u, hardwareReset midFrame = .next t ∧
      midFrame.timers.map (·.params) = midFrame.cfg.timers ∧ Reaches t u :=
  ⟨_, _, rfl, rfl, .stepped (.offered [byteInput 0x7E 5] .here) rfl⟩

theorem witness_no_fault :
    (withInput (byteInput 0x33 9) midFrame).Inv ∧ midFrame.cfg.ok = true ∧
    (byteInput 0x33 9).forDecoder = true ∧
    (withInput (.timer 0 false 0b111 9 9) midFrame).Inv ∧ midFrame.cfg.hasTimer 0 = true := by
  unfold State.Inv; decide

theorem witness_frame_in_mid_frame :
    midFrame.Inv ∧ midFrame.cfg.ok = true ∧ midFrame.cfg.frameOk [0x11, 0xE7] = true := by
  unfold State.Inv; decide

/-- A frame of one channel, and one of the count already active. -/
theorem witness_valid_frame :
    (dec .start 3 3 3 true 8).Inv ∧ (dec .start 3 3 3 true 8).cfg.ok = true ∧
    (dec .start 3 3 3 true 8).cfg.frameOk [0x7E] = true ∧
    (dec .start 3 3 3 true 8).cfg.frameOk [0x7E, 0x06, 0xE7] = true ∧
    (dec .start 3 3 3 true 8).state = .start ∧
    0 < (dec .start 3 3 3 true 8).cfg.idleTimeout := by
  unfold State.Inv; decide

/-- A frame of two channels, each code at its own sample: others than the start delimiter after long
gaps, the data byte 0x7E after one of 199, the last at which it does not resynchronise (R64). -/
theorem witness_timed_frame :
    let later : List (Byte × Nat) :=
      [(0x06, 400), (0x02, 5000), (0x00, 5001), (0x7E, 5200), (0x33, 9000), (0xE7, 9001)]
    let s : State := { dec .start 3 3 3 true 8 with
      inputs := byteInput 0x7E 100 :: later.map (fun c => byteInput c.1 c.2) }
    s.Inv ∧ s.cfg.ok = true ∧ s.cfg.frameOk [0x7E, 0x33] = true ∧ s.state = .start ∧
    frameCodes s.cfg [0x7E, 0x33] = rawOf s.cfg s.cfg.startDelim :: later.map (·.1) ∧
    NoResync s.cfg 100 later ∧ ¬ NoResync s.cfg 5001 [(0x7E, 5201)] ∧
    s.inputs = byteInput (rawOf s.cfg s.cfg.startDelim) 100 ::
      (later.map (fun c => byteInput c.1 c.2) ++ []) := by
  unfold State.Inv NoResync NoResync NoResync NoResync NoResync NoResync NoResync; decide

theorem witness_byte_step :
    (withInput (byteInput 0x33 9) midFrame).inputs = [byteInput 0x33 9] ∧
    (∃ t, step (withInput (byteInput 0x33 9) midFrame) = .next t) ∧ midFrame.state ≠ .finish :=
  ⟨rfl, ⟨_, rfl⟩, by decide⟩

theorem witness_sink_events :
    (withInput (byteInput 0x33 9) midFrame).Inv ∧
    (∃ t, step (withInput (byteInput 0x33 9) midFrame) = .next t ∧ .sinkWrite 2 0x33 ∈ t.out) ∧
    (∃ t, step (withInput (.cycle false true false 0 9) midFrame) = .next t ∧
      .sinkCfg 0 ∈ t.out) :=
  ⟨by unfold State.Inv; decide, ⟨_, rfl, by decide⟩, ⟨_, rfl, by decide⟩⟩

theorem witness_idle_stamp :
    (withInput (byteInput 0x20 9) (withCfg .alternate State.reset)).state = .start ∧
    Config.alternate.charBase ≤ 0x20 ∧
    (withInput (byteInput 0x20 9) (withCfg .alternate State.reset)).inputs = [byteInput 0x20 9] := by
  decide

end Sys2Proof.Tests
end

/-! The acceptance of each kind of input, as one equation per kind of `fetch` and of `step`; and with
them the statements about which operation a step runs (R52 to R60) and the refusal of a bad
configuration (U6, U13). -/

namespace Sys2Proof.Machine

variable {s : State} {now : Nat} {rest : List Input}

/-! ## Frames and lines -/

/-- A line is taken whole exactly where its codes decode as a frame. -/
theorem isFrame_iff {cfg : Config} {codes : List Byte} :
    isFrame cfg codes = true ↔ ∃ i, decodeFrame cfg codes = .ok i := by
  unfold isFrame
  cases decodeFrame cfg codes <;> simp [Except.toOption]

theorem fetch_frame {codes : List Byte} {i : Instr}
    (h : s.inputs = .line codes now :: rest) (hd : decodeFrame s.cfg codes = .ok i) :
    fetch s = .word (.frame codes) (s.take rest now) := by
  cases codes with
  | nil => simp [decodeFrame, decodeFrameCh] at hd
  | cons raw more => simp [fetch, h, fetchLine, isFrame_iff.2 ⟨i, hd⟩]

theorem fetch_codes {raw : Byte} {more : List Byte}
    (h : s.inputs = .line (raw :: more) now :: rest)
    (hd : ∀ i, decodeFrame s.cfg (raw :: more) ≠ .ok i) :
    fetch s = .word ((s.take (more.map (byteInput · now) ++ rest) now).codeWord raw)
      (s.take (more.map (byteInput · now) ++ rest) now) := by
  have hn : ¬ isFrame s.cfg (raw :: more) = true := fun hf => (isFrame_iff.1 hf).elim hd
  simp [fetch, h, fetchLine, hn]

theorem step_emptyLine (h : s.inputs = .line [] now :: rest) :
    step s = .next (s.take rest now) := by
  simp [step, fetch, h, fetchLine]

/-! ## The ports -/

theorem fetch_byteInput {raw : Byte} (h : s.inputs = byteInput raw now :: rest) :
    fetch s = .word ((s.take rest now).codeWord raw) (s.take rest now) := by
  simp [fetch, h, byteInput, fetchCycle, inReady]

theorem fetch_init {v : Bool} {d : Byte} (h : s.inputs = .cycle false true v d now :: rest) :
    fetch s = .word .init (s.take rest now) := by
  simp [fetch, h, fetchCycle]

theorem fetch_timer {k tArg : Nat} {tOp : BitVec 3}
    (h : s.inputs = .timer k false tOp tArg now :: rest) :
    fetch s = .word (.timer k tOp tArg) (s.take rest now) := by
  simp [fetch, h]

/-- The strobe `rst` is hardware reset, whatever is offered beside it (R111, decision D17). -/
theorem step_rst {init v : Bool} {d : Byte} (h : s.inputs = .cycle true init v d now :: rest) :
    step s = hardwareReset (s.take rest now) := by
  simp [step, fetch, h, fetchCycle]

theorem hardwareReset_refused (h : s.cfg.ok = false) :
    hardwareReset s = .refused .badConfiguration := by
  simp [hardwareReset, h]

/-! ## The step of an accepted word -/

/-- A step runs the operation that the accepted word decodes to, in the state it is accepted in. -/
theorem step_of_fetch_word {t : State} {w : Word} {i : Instr}
    (hf : fetch s = .word w t) (hd : decode t.cfg w = .ok i) : step s = exec i t := by
  simp [step, hf, runWord, hd]

/-- Settles O1: each kind of input is the word that `fetch` hands over for it, and `step_of_fetch_word`
runs what that word decodes to. -/
theorem stepRunsDecodedInstruction : Obligations.StepRunsDecodedInstruction := by
  unfold Obligations.StepRunsDecodedInstruction
  refine ⟨?word, ?code, ?init, ?timer, ?helper, ?frame, ?line, ?emptyLine⟩
  case word => exact fun s t w i hf hd => step_of_fetch_word hf hd
  case code => exact fun s raw now rest h => step_of_fetch_word (fetch_byteInput h) rfl
  case init => exact fun s v d now rest h => step_of_fetch_word (fetch_init h) rfl
  case timer => exact fun s k tOp tArg now rest h => step_of_fetch_word (fetch_timer h) rfl
  case helper =>
    intro s sel t rest
    and_intros <;> exact fun h => step_of_fetch_word (by rw [fetch, h]) rfl
  case frame => exact fun s codes i now rest h hd => step_of_fetch_word (fetch_frame h hd) hd
  case line => exact fun s raw more now rest h hd => step_of_fetch_word (fetch_codes h hd) rfl
  case emptyLine => exact fun s now rest h => step_emptyLine h

/-- Settles O10: `rst` is hardware reset, which refuses a configuration that breaks R12. -/
theorem badConfigurationIsRefused : Obligations.BadConfigurationIsRefused := by
  intro s init v d now rest hbad h
  rw [step_rst h, hardwareReset_refused (by simpa using hbad)]

end Sys2Proof.Machine

/-! What a byte step leaves unchanged, said once for the step in one piece (R83) and carried to the
rows by their agreement with it; and from it that no step writes the configuration (R8, R11, R30). -/

namespace Sys2Proof.Machine

/-! ## The rows are the step in one piece -/

@[simp] theorem sideOf_count (s : State) (raw : Byte) :
    (s.sideOf raw).count = s.countClassOf (chOf s.cfg raw) := by
  rw [State.sideOf]

@[simp] theorem sideOf_full (s : State) (raw : Byte) : (s.sideOf raw).full = s.full := by
  rw [State.sideOf]

theorem andThen_assoc (r : Result) (f g : State → Result) :
    andThen (andThen r f) g = andThen r fun s => andThen (f s) g := by
  cases r <;> rfl

/-- Two continuations agree where they agree on every state the first part goes on with. -/
theorem andThen_congr {r : Result} {f g : State → Result} (h : ∀ t, r = .next t → f t = g t) :
    andThen r f = andThen r g := by
  cases r with
  | next t => exact h t rfl
  | fault e => rfl
  | refused e => rfl

theorem goto_eq_self {s : State} {st : DecoderState} (h : s.state = st) : s.goto st = s := by
  subst h; rfl

/-- `DATA.WRITE` (R77) writes the state register `Data` that it was selected in. -/
theorem execDataWrite_of_data {s : State} (ch : Byte) (h : s.state = .data) :
    execDataWrite ch s =
      andThen (memWrite s.writeIndex.toNat ch (s.storeByte ch)) fun u => byteDone u.stepIndex := by
  rw [execDataWrite]
  apply andThen_congr
  intro u hu
  obtain ⟨-, rfl⟩ := memWrite_eq_next.1 hu
  rw [goto_eq_self (by simpa using h)]

/-- The four rows of `HighChannel`, selected in the order in which R72 tests the completed count, are
R83's arm `HighChannel`. -/
theorem exec_decodeStage3_highChannel {s : State} {side : Side} {ch : Byte}
    (hside : side.count = s.countClassOf ch) :
    exec (decodeStage3 s.cfg side .highChannel ch) s =
      andThen (processHigh (highCount s.declaredChannelCount ch)
        ((s.storeByte ch).completeCount ch)) byteDone := by
  simp only [decodeStage3, hside, State.countClassOf, countClass, processHigh]
  by_cases h0 : highCount s.declaredChannelCount ch = 0#16
  · simp [h0, exec, execHighZero]
  by_cases hc : s.cfg.maxCeiling < (highCount s.declaredChannelCount ch).toNat
  · simp [h0, hc, exec, execHighCeil]
  by_cases hn : (highCount s.declaredChannelCount ch).toNat = s.activeChannelCount.toNat
  · rw [hn] at hc
    simp [h0, hc, hn, exec, execHighSame]
  · simp [h0, hc, hn, exec, execHighNew, andThen_assoc]

/-- The row that stage 3 selects (R53) does what R83's case of the state does, between the store of the
code and the timer touch. -/
theorem exec_decodeStage3 (s : State) (raw : Byte) :
    exec (decodeStage3 s.cfg (s.sideOf raw) s.state (chOf s.cfg raw)) s =
      andThen (processCase (chOf s.cfg raw) (s.storeByte (chOf s.cfg raw))) byteDone := by
  have hcount := sideOf_count s raw
  generalize chOf s.cfg raw = ch at *
  cases hst : s.state with
  | start =>
    by_cases h : ch = s.cfg.startDelim <;>
      simp [decodeStage3, processCase, hst, h, exec, execStartMatch, execStartMismatch, startMatched,
        mismatched]
  | command =>
    by_cases h : ch = s.cfg.sendCommand <;>
      simp [decodeStage3, processCase, hst, h, exec, execCommandMatch, execCommandMismatch, mismatched]
  | lowChannel => simp [decodeStage3, processCase, hst, exec, execLowStore]
  | highChannel =>
    simpa [processCase, hst] using exec_decodeStage3_highChannel hcount
  | data =>
    by_cases hw : s.writeIndex < s.activeChannelCount
    · simp [decodeStage3, processCase, hst, State.full, hw, exec,
        execDataWrite_of_data ch hst, andThen_assoc]
    · by_cases h : ch = s.cfg.finishDelim <;>
        simp [decodeStage3, processCase, processFinish, hst, State.full, hw, h, exec,
          execDataFull, finishMatched, mismatched]
  | finish =>
    by_cases h : ch = s.cfg.finishDelim <;>
      simp [decodeStage3, processCase, processFinish, hst, h, exec, execFinishMatch,
        execFinishMismatch, finishMatched, mismatched]

section
variable {s : State} {raw : Byte}

theorem decodeCode_ignored (hb : raw < s.cfg.charBase) :
    decodeCode s.cfg (s.sideOf raw) s.state raw = .pbIgnore raw := if_pos hb

theorem decodeCode_resync (hb : ¬ raw < s.cfg.charBase) (hr : resyncs raw s) :
    decodeCode s.cfg (s.sideOf raw) s.state raw = .pbResync s.state :=
  (if_neg hb).trans (if_pos hr)

theorem decodeCode_stage3 (hb : ¬ raw < s.cfg.charBase) (hr : ¬ resyncs raw s) :
    decodeCode s.cfg (s.sideOf raw) s.state raw =
      decodeStage3 s.cfg (s.sideOf raw) s.state (chOf s.cfg raw) :=
  (if_neg hb).trans (if_neg hr)

theorem processByte_ignored (hb : raw < s.cfg.charBase) : processByte raw s = .next s := if_pos hb

theorem processByte_resync (hb : ¬ raw < s.cfg.charBase) (hr : resyncs raw s) :
    processByte raw s = execPbResync s.state s := by
  have hp : processResync (chOf s.cfg raw) (s.storeByte (chOf s.cfg raw)) =
      ((s.storeByte (chOf s.cfg raw)).raise .resync).goto .start := if_pos hr
  obtain ⟨-, hch, -⟩ := hr
  rw [hch] at hp
  simp [processByte, hb, hch, hp, processCase, execPbResync, startMatched]

theorem processByte_stage3 (hb : ¬ raw < s.cfg.charBase) (hr : ¬ resyncs raw s) :
    processByte raw s =
      andThen (processCase (chOf s.cfg raw) (s.storeByte (chOf s.cfg raw))) byteDone := by
  have hp : processResync (chOf s.cfg raw) (s.storeByte (chOf s.cfg raw)) =
      s.storeByte (chOf s.cfg raw) := if_neg hr
  simp [processByte, hb, hp]

end

/-- The three stages of the dispatch (R52) run the byte step in one piece (R83). -/
theorem exec_decodeCode_eq_processByte (s : State) (raw : Byte) :
    exec (decodeCode s.cfg (s.sideOf raw) s.state raw) s = processByte raw s := by
  by_cases hb : raw < s.cfg.charBase
  · rw [decodeCode_ignored hb, processByte_ignored hb, exec, execPbIgnore]
  by_cases hr : resyncs raw s
  · rw [decodeCode_resync hb hr, processByte_resync hb hr, exec]
  · rw [decodeCode_stage3 hb hr, processByte_stage3 hb hr, exec_decodeStage3]

/-- What a step runs on a code is the byte step in one piece. -/
theorem runWord_codeWord_eq_processByte (s : State) (raw : Byte) :
    runWord (s.codeWord raw) s = processByte raw s :=
  exec_decodeCode_eq_processByte s raw

/-! ## What a byte step leaves unchanged -/

/-- What no byte step writes: the configuration, the parameters of the decoder's timer, the stand-alone
timers, the sample, the queue of inputs and the events of earlier steps. -/
def ByteFrame (s t : State) : Prop :=
  t.cfg = s.cfg ∧ t.alarm.params = s.alarm.params ∧ t.timers = s.timers ∧ t.now = s.now ∧
  t.inputs = s.inputs ∧ t.trace = s.trace

theorem ByteFrame.refl (s : State) : ByteFrame s s := ⟨rfl, rfl, rfl, rfl, rfl, rfl⟩

theorem ByteFrame.trans {s t u : State} (h : ByteFrame s t) (h' : ByteFrame t u) :
    ByteFrame s u := by
  obtain ⟨hcfg, hparams, htimers, hnow, hinputs, htrace⟩ := h
  obtain ⟨hcfg', hparams', htimers', hnow', hinputs', htrace'⟩ := h'
  exact ⟨hcfg'.trans hcfg, hparams'.trans hparams, htimers'.trans htimers, hnow'.trans hnow,
    hinputs'.trans hinputs, htrace'.trans htrace⟩

@[simp] theorem errorHook_alarm_params (s : State) :
    s.errorHook.alarm.params = s.alarm.params := by
  unfold State.errorHook; split <;> rfl

@[simp] theorem raise_alarm_params (tag : FaultTag) (s : State) :
    (s.raise tag).alarm.params = s.alarm.params := by
  simp [State.raise]

theorem processFinish_frame {ch : Byte} {s t : State} (h : processFinish ch s = .next t) :
    ByteFrame s t := by
  unfold processFinish at h
  split at h <;> cases h <;> simp [ByteFrame]

theorem processHigh_frame {d : BitVec 16} {s t : State} (h : processHigh d s = .next t) :
    ByteFrame s t := by
  unfold processHigh at h
  split at h
  · cases h
    simp [ByteFrame]
  split at h
  · obtain ⟨u, hu, hd⟩ := andThen_eq_next.1 h
    obtain ⟨-, rfl⟩ := sinkConfigure_eq_next.1 hu
    cases hd
    simp [ByteFrame]
  · cases h
    simp [ByteFrame]

theorem processCase_frame {ch : Byte} {s t : State} (h : processCase ch s = .next t) :
    ByteFrame s t := by
  cases hst : s.state with simp only [processCase, hst] at h
  | start => split at h <;> cases h <;> simp [ByteFrame]
  | command => split at h <;> cases h <;> simp [ByteFrame]
  | lowChannel => cases h; simp [ByteFrame]
  | highChannel => exact .trans (by simp [ByteFrame]) (processHigh_frame h)
  | data =>
    split at h
    · obtain ⟨u, hu, hd⟩ := andThen_eq_next.1 h
      obtain ⟨-, rfl⟩ := memWrite_eq_next.1 hu
      cases hd
      simp [ByteFrame]
    · exact .trans (by simp [ByteFrame]) (processFinish_frame h)
  | finish => exact processFinish_frame h

theorem processByte_frame {raw : Byte} {s t : State} (h : processByte raw s = .next t) :
    ByteFrame s t := by
  rcases processByte_cases h with ⟨-, rfl⟩ | ⟨-, -, rfl⟩ | ⟨-, -, u, hu, rfl⟩
  · exact .refl t
  · simp [ByteFrame]
  · exact (processCase_frame hu).trans (by simp [ByteFrame])

theorem processCodes_frame {codes : List Byte} {s t : State} (h : processCodes codes s = .next t) :
    ByteFrame s t := by
  induction codes generalizing s with
  | nil => cases h; exact .refl t
  | cons raw rest ih =>
    obtain ⟨u, hu, hrest⟩ := andThen_eq_next.1 h
    exact (processByte_frame hu).trans (ih hrest)

/-! ## The configuration -/

/-- Writing a timer back with its own parameters keeps the list of parameters. -/
theorem map_params_set {l : List AlarmTimer} {k : Nat} {a a' : AlarmTimer} (h : l[k]? = some a)
    (hp : a'.params = a.params) : (l.set k a').map (·.params) = l.map (·.params) := by
  obtain ⟨hk, rfl⟩ := List.getElem?_eq_some_iff.1 h
  have hk' : l[k].params = (l.map (·.params))[k]'(by simpa using hk) := by simp
  rw [List.map_set, hp, hk', List.set_getElem_self]

/-- A byte step at any sample keeps the configuration and the parameters of every timer. -/
theorem ByteFrame.config_of_take {s t : State} {rest : List Input} {now : Nat}
    (h : ByteFrame (s.take rest now) t) :
    t.cfg = s.cfg ∧ t.timers.map (·.params) = s.timers.map (·.params) := by
  obtain ⟨hcfg, -, htimers, -⟩ := h
  exact ⟨hcfg, by rw [htimers, take_timers]⟩

/-- Settles O57: a step is idle, a reset, a byte step, a frame's codes, an operation on one timer or a
helper's call (`step_cases`); each leaves the configuration, and the parameters of every timer. -/
theorem configurationIsImmutable : Obligations.ConfigurationIsImmutable := by
  intro s t h
  rcases step_cases h with rfl | ⟨rest, now, rfl | ⟨-, rfl⟩ | ⟨k, a, ha, -, rfl⟩ | rfl | ⟨raw, hraw⟩ |
    ⟨k, a, a', due, ha, hp, rfl⟩ | ⟨codes, hcodes⟩ | ⟨operand, rfl⟩⟩
  · simp
  · simp
  · simp
  · exact ⟨rfl, map_params_set ha rfl⟩
  · simp
  · rw [runWord_codeWord_eq_processByte] at hraw
    exact (processByte_frame hraw).config_of_take
  · exact ⟨rfl, map_params_set ha hp⟩
  · exact (processCodes_frame hcodes).config_of_take
  · simp

end Sys2Proof.Machine

/-! What a byte step does to the sink, the active count and `writeIndex`, and which events it puts out
(R24, R38, R84), said once; and from it that every step keeps `State.Inv`, that every run stays inside
R26's bounds, and that the sink's events follow the active count. -/

namespace Sys2Proof.Machine

/-! ## What a byte step does to the sink -/

/-- The sink and the active count are as before, and the events are none, `Accepted`, or an `Error`
that the hook only notifies. -/
def SinkKept (s t : State) : Prop :=
  t.sink = s.sink ∧ t.activeChannelCount = s.activeChannelCount ∧
  (t.writeIndex = s.writeIndex ∨ t.writeIndex = 0) ∧
  (t.out = s.out ∨ t.out = s.out ++ [.accepted] ∨
    ∃ tag, s.cfg.errHook = .notifyOnly ∧ t.out = s.out ++ [.error tag])

/-- The default hook's full reset after a fault (R109). -/
def SinkCleared (s t : State) : Prop :=
  t.sink = ⟨0, []⟩ ∧ t.activeChannelCount = 0 ∧ t.writeIndex = 0 ∧
  ∃ tag, s.cfg.errHook = .default ∧ t.out = s.out ++ [.error tag, .sinkCfg 0]

/-- The sink is configured to a new count (R75). -/
def SinkConfigured (s t : State) : Prop :=
  ∃ d : BitVec 16, d ≠ 0 ∧ d.toNat ≤ sinkCapacity ∧
    t.sink = ⟨d.toNat, []⟩ ∧ t.activeChannelCount = d.setWidth 10 ∧ t.writeIndex = 0 ∧
    t.out = s.out ++ [.sinkCfg d.toNat]

/-- One byte is staged at `writeIndex` (R77). -/
def SinkStaged (s t : State) : Prop :=
  ∃ v : Byte, s.writeIndex < s.activeChannelCount ∧
    t.sink = ⟨s.sink.count, Memory.write s.sink.channels s.writeIndex.toNat v⟩ ∧
    t.activeChannelCount = s.activeChannelCount ∧ t.writeIndex = s.writeIndex + 1 ∧
    t.out = s.out ++ [.sinkWrite s.writeIndex.toNat v]

/-- All that a byte step can do to the sink, the active count, `writeIndex` and the events. An update
of any other register does not show in it. -/
def SinkEffect (s t : State) : Prop :=
  SinkKept s t ∨ SinkCleared s t ∨ SinkConfigured s t ∨ SinkStaged s t

theorem SinkEffect.of_kept {s t : State} (h : SinkKept s t) : SinkEffect s t := .inl h

theorem raise_sinkEffect (tag : FaultTag) (s : State) : SinkEffect s (s.raise tag) := by
  cases hook : s.cfg.errHook with
  | default =>
    rw [raise_default hook]
    exact .inr (.inl (by simp [SinkCleared, hook]))
  | notifyOnly =>
    rw [raise_notifyOnly hook]
    exact .of_kept (by simp [SinkKept, hook])

theorem abortHeader_raise_sinkEffect (tag : FaultTag) (s : State) :
    SinkEffect s (s.raise tag).abortHeader := by
  cases hook : s.cfg.errHook with
  | default =>
    rw [abortHeader_default _ (by simpa using hook)]
    exact raise_sinkEffect tag s
  | notifyOnly =>
    rw [abortHeader_notifyOnly _ (by simpa using hook), raise_notifyOnly hook]
    exact .of_kept (by simp [SinkKept, hook])

theorem processFinish_sinkEffect {ch : Byte} {s t : State} (h : processFinish ch s = .next t) :
    SinkEffect s t := by
  unfold processFinish at h
  split at h <;> cases h
  · exact .of_kept (by simp [SinkKept])
  · exact raise_sinkEffect .mismatch s

theorem processHigh_sinkEffect {d : BitVec 16} {s t : State} (h : processHigh d s = .next t) :
    SinkEffect s t := by
  unfold processHigh at h
  split at h
  case isTrue =>
    cases h
    exact abortHeader_raise_sinkEffect _ s
  case isFalse hrange =>
    split at h
    · obtain ⟨u, hu, hdone⟩ := andThen_eq_next.1 h
      obtain ⟨hcap, rfl⟩ := sinkConfigure_eq_next.1 hu
      cases hdone
      exact .inr (.inr (.inl ⟨d, fun hd => hrange (.inl hd), hcap, rfl, rfl, rfl, rfl⟩))
    · cases h
      exact .of_kept (by simp [SinkKept])

theorem processCase_sinkEffect {ch : Byte} {s t : State} (h : processCase ch s = .next t) :
    SinkEffect s t := by
  cases hst : s.state with simp only [processCase, hst] at h
  | start | command =>
    split at h <;> cases h
    · exact .of_kept (by simp [SinkKept])
    · exact raise_sinkEffect .mismatch s
  | lowChannel => cases h; exact .of_kept (by simp [SinkKept])
  | highChannel => exact (processHigh_sinkEffect h :)
  | data =>
    split at h
    case isTrue hlt =>
      obtain ⟨u, hu, hdone⟩ := andThen_eq_next.1 h
      obtain ⟨-, rfl⟩ := memWrite_eq_next.1 hu
      cases hdone
      exact .inr (.inr (.inr ⟨ch, hlt, rfl, rfl, rfl, rfl⟩))
    case isFalse => exact (processFinish_sinkEffect h :)
  | finish => exact processFinish_sinkEffect h

theorem processByte_sinkEffect {raw : Byte} {s t : State} (h : processByte raw s = .next t) :
    SinkEffect s t := by
  rcases processByte_cases h with ⟨-, rfl⟩ | ⟨-, -, rfl⟩ | ⟨-, -, u, hu, rfl⟩
  · exact .of_kept (by simp [SinkKept])
  · exact raise_sinkEffect .resync (s.storeByte _)
  · exact (processCase_sinkEffect hu :)

/-! ## The invariant -/

theorem State.Inv.alarm {s : State} (h : s.Inv) : s.alarm.params = s.cfg.alarm := by
  obtain ⟨-, -, -, -, -, halarm, -⟩ := h
  exact halarm

theorem State.Inv.timers {s : State} (h : s.Inv) : s.timers.map (·.params) = s.cfg.timers := by
  obtain ⟨-, -, -, -, -, -, htimers⟩ := h
  exact htimers

/-- The full reset gives the invariant wherever the timers are the configured ones. -/
theorem fullReset_inv {s : State} (halarm : s.alarm.params = s.cfg.alarm)
    (htimers : s.timers.map (·.params) = s.cfg.timers) : s.fullReset.Inv := by
  simp [State.Inv, Memory.wf, Sink.inRange, halarm, htimers]

/-- The invariant does not look at the queue. -/
theorem State.Inv.offered {s : State} (h : s.Inv) (inputs : List Input) :
    State.Inv { s with inputs := s.inputs ++ inputs } := h

/-- Writing back a timer with its own parameters keeps the invariant. -/
theorem State.Inv.setTimer {s : State} {k : Nat} {a a' : AlarmTimer} (h : s.Inv)
    (ha : s.timers[k]? = some a) (hp : a'.params = a.params) : (s.setTimer k a').Inv := by
  obtain ⟨hindex, hactive, hcount, hwf, hrange, halarm, htimers⟩ := h
  exact ⟨hindex, hactive, hcount, hwf, hrange, halarm, (map_params_set ha hp).trans htimers⟩

/-- A byte staged below the count keeps the listed channels inside it. -/
theorem inRange_write {k : Sink} {i : Nat} {v : Byte} (h : k.inRange = true) (hi : i < k.count) :
    (Sink.mk k.count (Memory.write k.channels i v)).inRange = true := by
  simp only [Sink.inRange, List.all_eq_true, decide_eq_true_eq] at h ⊢
  intro c hc
  rcases Memory.mem_write hc with rfl | hc
  · exact hi
  · exact h c hc

theorem toNat_activeCount {d : BitVec 16} (h : d.toNat ≤ sinkCapacity) :
    (d.setWidth 10).toNat = d.toNat := by
  have hcap : d.toNat ≤ 512 := h
  rw [BitVec.toNat_setWidth]
  omega

/-- Whatever a byte step does to the sink, it keeps the invariant. -/
theorem SinkEffect.inv {s t : State} (he : SinkEffect s t) (hf : ByteFrame s t) (hs : s.Inv) :
    t.Inv := by
  obtain ⟨hindex, hactive, hcount, hwf, hrange, halarm, htimers⟩ := hs
  obtain ⟨hcfg, hparams, htimers', -, -, -⟩ := hf
  have halarm' : t.alarm.params = t.cfg.alarm := by rw [hparams, hcfg, halarm]
  have htimers'' : t.timers.map (·.params) = t.cfg.timers := by rw [htimers', hcfg, htimers]
  unfold State.Inv
  rcases he with ⟨hsink, hact, hidx, -⟩ | ⟨hsink, hact, hidx, -⟩ |
    ⟨d, -, hd, hsink, hact, hidx, -⟩ | ⟨v, hlt, hsink, hact, hidx, -⟩ <;> rw [hsink, hact]
  · refine ⟨?_, hactive, hcount, hwf, hrange, halarm', htimers''⟩
    rcases hidx with hidx | hidx <;> simp [hidx, hindex]
  · rw [hidx]
    exact ⟨le_rfl, by simp, rfl, rfl, rfl, halarm', htimers''⟩
  · rw [hidx, toNat_activeCount hd]
    exact ⟨by simp, hd, rfl, rfl, rfl, halarm', htimers''⟩
  · have hlt' : s.writeIndex.toNat < s.activeChannelCount.toNat := hlt
    refine ⟨?_, hactive, hcount, Memory.write_wf _ _ _ hwf, inRange_write hrange (by omega),
      halarm', htimers''⟩
    rw [hidx, BitVec.toNat_add]
    exact (Nat.mod_le _ _).trans hlt'

theorem processByte_inv {raw : Byte} {s t : State} (hs : s.Inv) (h : processByte raw s = .next t) :
    t.Inv :=
  (processByte_sinkEffect h).inv (processByte_frame h) hs

/-- Whatever every byte step keeps, the codes of a frame keep. -/
theorem processCodes_keeps {P : State → Prop}
    (hP : ∀ {raw : Byte} {s t : State}, P s → processByte raw s = .next t → P t)
    {codes : List Byte} {s t : State} (hs : P s) (h : processCodes codes s = .next t) : P t := by
  induction codes generalizing s with
  | nil => cases h; exact hs
  | cons raw rest ih =>
    obtain ⟨u, hu, hrest⟩ := andThen_eq_next.1 h
    exact ih (hP hs hu) hrest

/-- Settles O47: of all that a step can do (`step_cases`), a full reset gives the invariant anew, a
byte step keeps it by its effect on the sink, and the rest writes nothing it speaks of but a timer's
`scheduledTime`. -/
theorem stepKeepsTheInvariant : Obligations.StepKeepsTheInvariant := by
  intro s t hs h
  rcases step_cases h with rfl | ⟨rest, now, rfl | ⟨-, rfl⟩ | ⟨k, a, ha, -, rfl⟩ | rfl | ⟨raw, hraw⟩ |
    ⟨k, a, a', due, ha, hp, rfl⟩ | ⟨codes, hcodes⟩ | ⟨operand, rfl⟩⟩
  · exact hs
  · exact hs
  · exact fullReset_inv rfl hs.timers
  · exact State.Inv.setTimer (s := s.take rest now) hs ha rfl
  · exact fullReset_inv hs.alarm hs.timers
  · rw [runWord_codeWord_eq_processByte] at hraw
    exact processByte_inv (s := s.take rest now) hs hraw
  · exact State.Inv.setTimer (s := s.take rest now) hs ha hp
  · exact processCodes_keeps (P := State.Inv) processByte_inv (s := s.take rest now) hs hcodes
  · exact hs

/-- The invariant holds along every run that starts with it. -/
theorem Reaches.inv {s t : State} (h : Reaches s t) (hs : s.Inv) : t.Inv := by
  induction h with
  | here => exact hs
  | offered inputs _ ih => exact ih.offered inputs
  | stepped _ hstep ih => exact stepKeepsTheInvariant _ _ ih hstep

/-- Settles O48: hardware reset of any configuration gives the invariant, and every run keeps it. -/
theorem writeIndexStaysBelowTheActiveCount : Obligations.WriteIndexStaysBelowTheActiveCount := by
  intro s t u hreset htimers hreach
  obtain ⟨-, rfl⟩ := hardwareReset_eq_next.1 hreset
  obtain ⟨hindex, hactive, -⟩ := hreach.inv (fullReset_inv rfl htimers)
  exact ⟨hindex, hactive⟩

/-- Settles O12: the reset state lists no channel, its counts are 0, and its timers are those of the
standard configuration. -/
theorem resetStateIsGood : Obligations.ResetStateIsGood :=
  ⟨le_rfl, by decide, rfl, rfl, rfl, rfl, rfl⟩

/-- Settles O11: the values of R35, read off the reset state one by one. -/
theorem resetStateValues : Obligations.ResetStateValues :=
  ⟨rfl, rfl, rfl, rfl, rfl, rfl, rfl, rfl, by decide, rfl⟩

/-! ## The sink's events -/

/-- Every `SinkCfg` event of `t` carries the active count of `t`, and every `SinkWrite` event lies
below `count`. -/
def SinkEventsFollow (count : Nat) (t : State) : Prop :=
  (∀ n, .sinkCfg n ∈ t.out → t.activeChannelCount.toNat = n) ∧
  (∀ i b, .sinkWrite i b ∈ t.out → i < count)

theorem sinkEventsFollow_of_out_nil {t : State} {count : Nat} (h : t.out = []) :
    SinkEventsFollow count t := by
  simp [SinkEventsFollow, h]

theorem fullReset_sinkEventsFollow {s : State} {count : Nat} (h : s.out = []) :
    SinkEventsFollow count s.fullReset := by
  simp [SinkEventsFollow, h]

/-- Whatever a byte step does to the sink, its events follow the active count. -/
theorem SinkEffect.events {s t : State} (he : SinkEffect s t) (hout : s.out = []) :
    SinkEventsFollow s.activeChannelCount.toNat t := by
  unfold SinkEventsFollow
  rcases he with ⟨-, -, -, h | h | ⟨tag, -, h⟩⟩ | ⟨-, hact, -, tag, -, h⟩ |
    ⟨d, -, hd, -, hact, -, h⟩ | ⟨v, hlt, -, -, -, h⟩ <;> rw [h, hout]
  · simp
  · simp
  · simp
  · simp [hact]
  · simp [hact, toNat_activeCount hd]
  · have hlt' : s.writeIndex.toNat < s.activeChannelCount.toNat := hlt
    simpa using hlt'

/-- The step of a code offered with neither strobe is the byte step in one piece. -/
theorem step_byteInput {s : State} {raw : Byte} {now : Nat} {rest : List Input}
    (hin : s.inputs = byteInput raw now :: rest) :
    step s = processByte raw (s.take rest now) := by
  rw [step_of_fetch_word (fetch_byteInput hin) rfl, exec_decodeCode_eq_processByte]

/-- All that a step can do in a cycle of the decoder: nothing, one of the two resets, or a byte step. -/
theorem step_cycle_cases {s t : State} {rst init v : Bool} {d : Byte} {now : Nat} {rest : List Input}
    (hin : s.inputs = .cycle rst init v d now :: rest) (h : step s = .next t) :
    t = s.take rest now ∨ t = (s.take rest now).createRegisters.fullReset ∨
    t = (s.take rest now).fullReset ∨ processByte d (s.take rest now) = .next t := by
  cases rst with
  | true =>
    rw [step_rst hin] at h
    exact .inr (.inl (hardwareReset_eq_next.1 h).2)
  | false =>
    cases init with
    | true =>
      rw [step_of_fetch_word (fetch_init hin) rfl] at h
      cases h
      exact .inr (.inr (.inl rfl))
    | false =>
      cases v with
      | true =>
        rw [step_byteInput hin] at h
        exact .inr (.inr (.inr h))
      | false =>
        simp [step, fetch, hin, fetchCycle] at h
        exact .inl h.symm

theorem step_cycle_sinkEvents {s t : State} {rst init v : Bool} {d : Byte} {now : Nat}
    {rest : List Input} (hin : s.inputs = .cycle rst init v d now :: rest) (h : step s = .next t) :
    SinkEventsFollow s.activeChannelCount.toNat t := by
  rcases step_cycle_cases hin h with rfl | rfl | rfl | hbyte
  · exact sinkEventsFollow_of_out_nil rfl
  · exact fullReset_sinkEventsFollow rfl
  · exact fullReset_sinkEventsFollow rfl
  · exact (processByte_sinkEffect hbyte).events rfl

/-- Settles O54: the events of the cycle follow the active count, which the invariant bounds by 512. -/
theorem sinkEventsFollowTheActiveCount : Obligations.SinkEventsFollowTheActiveCount := by
  intro s t rst init v d now rest hs hin h
  obtain ⟨-, hactive, -⟩ := hs
  obtain ⟨hcfg, hwrite⟩ := step_cycle_sinkEvents hin h
  refine ⟨hcfg, fun i b hmem => ?_⟩
  have hi := hwrite i b hmem
  omega

end Sys2Proof.Machine

/-! `Finish` is never left standing (R21): the byte that ends a frame is taken and the decoder goes back
to `Start` in the same step. -/

namespace Sys2Proof.Machine

theorem abortHeader_raise_state_ne_finish {s : State} (tag : FaultTag) :
    (s.raise tag).abortHeader.state ≠ .finish := by
  cases hook : s.cfg.errHook with
  | default =>
    rw [abortHeader_default _ (by simpa using hook), raise_default hook]
    simp
  | notifyOnly =>
    rw [abortHeader_notifyOnly _ (by simpa using hook)]
    simp

theorem processFinish_state {ch : Byte} {s t : State} (h : processFinish ch s = .next t) :
    t.state = .start := by
  unfold processFinish at h
  split at h <;> cases h <;> rfl

theorem processHigh_state_ne_finish {d : BitVec 16} {s t : State} (h : processHigh d s = .next t) :
    t.state ≠ .finish := by
  unfold processHigh at h
  split at h
  · cases h
    exact abortHeader_raise_state_ne_finish _
  split at h
  · obtain ⟨u, -, hdone⟩ := andThen_eq_next.1 h
    cases hdone
    simp
  · cases h
    simp

/-- R83's case of the state leaves another state than `Finish`, `Finish` itself included. -/
theorem processCase_state_ne_finish {ch : Byte} {s t : State} (h : processCase ch s = .next t) :
    t.state ≠ .finish := by
  cases hst : s.state with simp only [processCase, hst] at h
  | start | command => split at h <;> cases h <;> simp
  | lowChannel => cases h; simp
  | highChannel => exact processHigh_state_ne_finish h
  | data =>
    split at h
    · obtain ⟨u, hu, hdone⟩ := andThen_eq_next.1 h
      obtain ⟨-, rfl⟩ := memWrite_eq_next.1 hu
      cases hdone
      simp [hst]
    · simp [processFinish_state h]
  | finish => simp [processFinish_state h]

/-- Only an ignored code leaves `Finish` standing, where it stood before. -/
theorem processByte_state_ne_finish {raw : Byte} {s t : State} (hs : s.state ≠ .finish)
    (h : processByte raw s = .next t) : t.state ≠ .finish := by
  rcases processByte_cases h with ⟨-, rfl⟩ | ⟨-, -, rfl⟩ | ⟨-, -, u, hu, rfl⟩
  · exact hs
  · simp
  · exact (processCase_state_ne_finish hu :)

/-- Settles O56: of all that a step can do (`step_cases`), the resets go to `Start`, a byte step leaves
no `Finish`, and the rest does not write the state register. -/
theorem finishIsTransient : Obligations.FinishIsTransient := by
  intro s t hs h
  rcases step_cases h with rfl | ⟨rest, now, rfl | ⟨-, rfl⟩ | ⟨k, a, -, -, rfl⟩ | rfl | ⟨raw, hraw⟩ |
    ⟨k, a, a', due, -, -, rfl⟩ | ⟨codes, hcodes⟩ | ⟨operand, rfl⟩⟩
  · exact hs
  · exact hs
  · simp
  · exact hs
  · simp
  · rw [runWord_codeWord_eq_processByte] at hraw
    exact processByte_state_ne_finish (s := s.take rest now) hs hraw
  · exact hs
  · exact processCodes_keeps (P := fun s => s.state ≠ .finish) processByte_state_ne_finish
      (s := s.take rest now) hs hcodes
  · exact hs

end Sys2Proof.Machine

/-! What is not read: `pendingByte` by any rule (R22, R63), and the idle stamp by a code met in `Start`
(R36, R64, R65). A value is not read where it is overwritten first, or where the operation and its
change commute. -/

namespace Sys2Proof.Machine

open Claims

/-! ## Outcomes that agree -/

theorem sameButPending_refl (s : State) : SameButPending s s := rfl

theorem agree_storeByte (s : State) (b : Byte) :
    Agree SameButPending (.next s) (.next (s.storeByte b)) := rfl

/-- Two parts of a step that give the same outcome agree. -/
theorem agree_of_eq {R : State → State → Prop} (hR : ∀ s, R s s) {r q : Result} (h : q = r) :
    Agree R r q := by
  subst h
  cases q with
  | next s => exact hR s
  | fault e => exact rfl
  | refused e => exact rfl

/-- Branches on one condition agree where both pairs do. -/
theorem agree_ite {R : State → State → Prop} {c : Prop} [Decidable c] {r q r' q' : Result}
    (h : Agree R r q) (h' : Agree R r' q') :
    Agree R (if c then r else r') (if c then q else q') := by
  by_cases hc : c
  · simpa only [if_pos hc] using h
  · simpa only [if_neg hc] using h'

/-- Operations on one timer agree where they agree whatever it holds. -/
theorem agree_withTimer {R : State → State → Prop} {s u : State} {k : Nat}
    {f g : AlarmTimer → Result} (htimers : u.timers = s.timers) (h : ∀ t, Agree R (f t) (g t)) :
    Agree R (withTimer k s f) (withTimer k u g) := by
  simp only [withTimer, htimers]
  cases s.timers[k]? with
  | none => exact rfl
  | some t => exact h t

/-! ## No rule reads `pendingByte` -/

/-- What an input asks for, with `pendingByte` changed in the state in which it runs. -/
def Fetched.storeByte (b : Byte) : Fetched → Fetched
  | .idle s => .idle (s.storeByte b)
  | .reset s => .reset (s.storeByte b)
  | .timerReset k s => .timerReset k (s.storeByte b)
  | .word w s => .word w (s.storeByte b)

section
variable (s : State) (b : Byte)

theorem fetchCycle_storeByte (rst init v : Bool) (d : Byte) :
    fetchCycle rst init v d (s.storeByte b) = (fetchCycle rst init v d s).storeByte b := by
  unfold fetchCycle
  cases rst with
  | true => rfl
  | false =>
    cases init with
    | true => rfl
    | false => cases v <;> rfl

theorem fetchLine_storeByte (codes : List Byte) (now : Nat) (rest : List Input) :
    fetchLine codes now rest (s.storeByte b) = (fetchLine codes now rest s).storeByte b := by
  cases codes with
  | nil => rfl
  | cons raw more =>
    cases hf : isFrame s.cfg (raw :: more) <;> simp [fetchLine, hf] <;> rfl

/-- Accepting an input does not look at `pendingByte`, and hands it over. -/
theorem fetch_storeByte : fetch (s.storeByte b) = (fetch s).storeByte b := by
  unfold fetch
  rw [storeByte_inputs]
  cases s.inputs with
  | nil => rfl
  | cons i rest =>
    cases i with
    | cycle rst init v d now => exact fetchCycle_storeByte (s.take rest now) b rst init v d
    | line codes now => exact fetchLine_storeByte s b codes now rest
    | timer k rst tOp tArg now => cases rst <;> rfl
    | ms | seconds | minutes | hours | days => rfl

/-- A code that is not ignored overwrites `pendingByte` before anything else is done (R63). -/
theorem processByte_storeByte {raw : Byte} (hb : ¬ raw < s.cfg.charBase) :
    processByte raw (s.storeByte b) = processByte raw s := by
  simp only [processByte, storeByte_cfg, hb, if_false]
  rfl

theorem processCodes_pending (codes : List Byte) :
    Agree SameButPending (processCodes codes s) (processCodes codes (s.storeByte b)) := by
  induction codes with
  | nil => exact agree_storeByte s b
  | cons raw rest ih =>
    by_cases hb : raw < s.cfg.charBase
    · have hb' : raw < (s.storeByte b).cfg.charBase := hb
      simpa only [processCodes, processByte_ignored hb, processByte_ignored hb', andThen_next] using ih
    · exact agree_of_eq sameButPending_refl (by simp only [processCodes, processByte_storeByte s b hb])

theorem helper_pending (factor : Nat) (sel : TimerSel) (t : Nat) :
    Agree SameButPending (helper factor sel t s) (helper factor sel t (s.storeByte b)) := by
  have hp : (s.storeByte b).paramsOf sel = s.paramsOf sel := by cases sel <;> rfl
  simp only [helper, hp, storeByte_cfg]
  cases s.paramsOf sel with
  | none => exact rfl
  | some p => exact agree_ite (agree_storeByte _ b) rfl

/-- Each operation, whatever its operands: the byte rows overwrite `pendingByte`, an ignored code, the
strobe and the timers keep it. -/
theorem exec_pending (i : Instr) :
    Agree SameButPending (exec i s) (exec i (s.storeByte b)) := by
  cases i with
  | pbIgnore | ctrlInit => exact agree_storeByte _ b
  | pbResync | startMatch | startMismatch | commandMatch | commandMismatch | lowStore | highZero
  | highCeil | highNew | highSame | dataWrite | dataFull | finishMatch | finishMismatch =>
    exact agree_of_eq sameButPending_refl rfl
  | tNop | tSet | tReset | tDueBy | tReserved =>
    exact agree_withTimer rfl fun _ => agree_storeByte _ b
  | tWait | tRepeat =>
    exact agree_withTimer rfl fun _ => agree_ite (agree_storeByte _ b) (agree_storeByte _ b)
  | uMs sel t | uSeconds sel t | uMinutes sel t | uHours sel t | uDays sel t =>
    exact helper_pending s b _ sel t
  | wireFrame data => exact processCodes_pending s b (frameCodes s.cfg data)

theorem runWord_pending (w : Word) :
    Agree SameButPending (runWord w s) (runWord w (s.storeByte b)) := by
  simp only [runWord, storeByte_cfg]
  cases decode s.cfg w with
  | error e => exact rfl
  | ok i => exact exec_pending s b i

theorem hardwareReset_pending :
    Agree SameButPending (hardwareReset s) (hardwareReset (s.storeByte b)) :=
  agree_of_eq sameButPending_refl rfl

theorem timerReset_pending (k : Nat) :
    Agree SameButPending (timerReset k s) (timerReset k (s.storeByte b)) :=
  agree_withTimer rfl fun _ => agree_ite (agree_storeByte _ b) rfl

end

/-- Settles O58: the input is accepted alike (`fetch_storeByte`), and whatever it asks for runs
alike. -/
theorem pendingByteIsNeverRead : Obligations.PendingByteIsNeverRead := by
  intro s b
  change Agree SameButPending (step s) (step (s.storeByte b))
  rw [step, step, fetch_storeByte]
  cases fetch s with
  | idle t => exact agree_storeByte t b
  | reset t => exact hardwareReset_pending t b
  | timerReset k t => exact timerReset_pending t b k
  | word w t => exact runWord_pending t b w

/-! ## The idle stamp in `Start` -/

/-- The decoder's timer with another `scheduledTime`. -/
def State.withStamp (s : State) (v : BitVec s.alarm.params.w) : State :=
  { s with alarm := ⟨s.alarm.params, v⟩ }

/-- The timer touch overwrites the stamp (R65). -/
theorem touch_goto_withStamp (s : State) (v : BitVec s.alarm.params.w) (st : DecoderState) :
    ((s.withStamp v).goto st).touch = (s.goto st).touch := rfl

/-- So it does after a fault, which does not read the stamp under either hook. -/
theorem touch_goto_raise_withStamp (s : State) (v : BitVec s.alarm.params.w) (tag : FaultTag)
    (st : DecoderState) :
    (((s.withStamp v).raise tag).goto st).touch = ((s.raise tag).goto st).touch := by
  have hcfg : (s.withStamp v).cfg = s.cfg := rfl
  cases hook : s.cfg.errHook with
  | default => rw [raise_default hook, raise_default (by rw [hcfg, hook])]; rfl
  | notifyOnly => rw [raise_notifyOnly hook, raise_notifyOnly (by rw [hcfg, hook])]; rfl

/-- The byte step in `Start`, where no code resynchronizes (R64): R67 or R68. -/
theorem processByte_start {raw : Byte} {s : State} (hst : s.state = .start)
    (hb : ¬ raw < s.cfg.charBase) :
    processByte raw s = .next (if chOf s.cfg raw = s.cfg.startDelim
      then ((s.storeByte (chOf s.cfg raw)).goto .command).touch
      else (((s.storeByte (chOf s.cfg raw)).raise .mismatch).goto .start).touch) := by
  have hr : ¬ resyncs raw s := fun ⟨hne, _⟩ => hne hst
  rw [processByte_stage3 hb hr]
  by_cases hch : chOf s.cfg raw = s.cfg.startDelim <;> simp [processCase, hst, hch, byteDone]

theorem processByte_withStamp {raw : Byte} {s : State} (v : BitVec s.alarm.params.w)
    (hst : s.state = .start) (hb : ¬ raw < s.cfg.charBase) :
    processByte raw (s.withStamp v) = processByte raw s := by
  rw [processByte_start hst hb, processByte_start (s := s.withStamp v) hst hb]
  have hcfg : (s.withStamp v).cfg = s.cfg := rfl
  rw [hcfg]
  by_cases hch : chOf s.cfg raw = s.cfg.startDelim
  · rw [if_pos hch, if_pos hch]
    exact congrArg Host.Outcome.next
      (touch_goto_withStamp (s.storeByte (chOf s.cfg raw)) v .command)
  · rw [if_neg hch, if_neg hch]
    exact congrArg Host.Outcome.next
      (touch_goto_raise_withStamp (s.storeByte (chOf s.cfg raw)) v .mismatch .start)

/-- Settles O60: the step is the byte step, which in `Start` overwrites the stamp unread. -/
theorem idleStampIsUnseenInStart : Obligations.IdleStampIsUnseenInStart := by
  intro s v raw now rest hst hb hin
  change step (s.withStamp v) = step s
  rw [step_byteInput hin, step_byteInput (s := s.withStamp v) hin]
  exact processByte_withStamp (s := s.take rest now) v hst (BitVec.not_lt.2 hb)

end Sys2Proof.Machine

/-! The key that selects a row meets the row's `match` and `mask` (R52 to R54): each mask keeps the
whole key, its state, or its code. -/

namespace Sys2Proof.Machine

open Claims

theorem dispatchKey_and_stateMask (st : DecoderState) (ch : Byte) :
    dispatchKey st ch &&& (0x700 : BitVec 11) = st.code ++ 0#8 := by
  rw [dispatchKey, show (0x700 : BitVec 11) = 7#3 ++ 0#8 from rfl, BitVec.and_append, BitVec.and_zero]
  congr 1
  exact BitVec.and_allOnes

theorem dispatchKey_and_codeMask (st : DecoderState) (ch : Byte) :
    dispatchKey st ch &&& (0x0FF : BitVec 11) = 0#3 ++ ch := by
  rw [dispatchKey, show (0x0FF : BitVec 11) = 0#3 ++ 255#8 from rfl, BitVec.and_append, BitVec.and_zero]
  congr 1
  exact BitVec.and_allOnes

theorem dispatchKey_and_wholeMask (st : DecoderState) (ch : Byte) :
    dispatchKey st ch &&& (0x7FF : BitVec 11) = dispatchKey st ch :=
  BitVec.and_allOnes

/-- The key of a row of stage 3 in the standard configuration: a row that matches one code fixes the
whole key, any other its state. -/
theorem decodeStage3_key {side : Side} {st : DecoderState} {ch : Byte} {m k : BitVec 11}
    (h : keyRow (decodeStage3 .standard side st ch) = some (m, k)) :
    dispatchKey st ch &&& k = m := by
  cases st with simp only [decodeStage3] at h
  | start | command | finish =>
    split at h
    case isTrue hch => cases h; rw [dispatchKey_and_wholeMask, hch]; rfl
    case isFalse => cases h; rw [dispatchKey_and_stateMask]; rfl
  | lowChannel => cases h; rw [dispatchKey_and_stateMask]; rfl
  | highChannel => split at h <;> cases h <;> rw [dispatchKey_and_stateMask] <;> rfl
  | data => split at h <;> cases h <;> rw [dispatchKey_and_stateMask] <;> rfl

/-- Settles O7: an ignored code's row has no `match`, a resynchronization fixes the code alone, and the
rows of stage 3 are `decodeStage3_key`. -/
theorem selectedKeyMeetsMatchAndMask : Obligations.SelectedKeyMeetsMatchAndMask := by
  intro side st raw i m k hdec hrow
  cases hdec
  unfold decodeCode at hrow
  split at hrow
  · cases hrow
  split at hrow
  case isTrue hsync =>
    obtain ⟨-, hch, -⟩ := hsync
    cases hrow
    rw [dispatchKey_and_codeMask, hch]
    rfl
  case isFalse => exact decodeStage3_key hrow

end Sys2Proof.Machine

/-! The declared count of a header (R41): `LOW.STORE` writes the low byte and each row of `HighChannel`
adds the high one (R71, R72). No hook, nor the timer touch, writes it again. -/

namespace Sys2Proof.Machine

/-- `LOW.STORE` leaves the zero-extended code as the declared count (R71). -/
theorem execLowStore_declaredChannelCount {ch : Byte} {s t : State}
    (h : execLowStore ch s = .next t) : t.declaredChannelCount = ch.setWidth 16 := by
  rw [execLowStore, byteDone_eq_next] at h
  simp [h]

/-- After the fault of `'0'` or `'C'` the completed count stands, under either hook (R73, R74). -/
theorem completeCount_raise_declaredChannelCount {ch : Byte} {tag : FaultTag} {s t : State}
    (h : byteDone (((s.storeByte ch).completeCount ch).raise tag).abortHeader = .next t) :
    t.declaredChannelCount = highCount s.declaredChannelCount ch := by
  rw [byteDone_eq_next] at h
  simp [h]

/-- `HIGH.NEW` leaves the completed count as the declared one, where it is not refused (R72, R75). -/
theorem execHighNew_declaredChannelCount {ch : Byte} {s t : State}
    (h : execHighNew ch s = .next t) :
    t.declaredChannelCount = highCount s.declaredChannelCount ch := by
  obtain ⟨u, hu, hdone⟩ := andThen_eq_next.1 h
  obtain ⟨-, rfl⟩ := sinkConfigure_eq_next.1 hu
  rw [byteDone_eq_next] at hdone
  simp [hdone]

/-- `HIGH.SAME` leaves the completed count as the declared one (R72, R76). -/
theorem execHighSame_declaredChannelCount {ch : Byte} {s t : State}
    (h : execHighSame ch s = .next t) :
    t.declaredChannelCount = highCount s.declaredChannelCount ch := by
  rw [execHighSame, byteDone_eq_next] at h
  simp [h]

/-- Settles O8: each of the four rows completes the count of the low byte, and that is `frameCount`,
whose number is the little-endian one. -/
theorem countIsLittleEndian : Obligations.CountIsLittleEndian := by
  intro lo hi s t u hlow hhigh
  have hcount : u.declaredChannelCount = highCount t.declaredChannelCount hi := by
    rcases hhigh with hzero | hceil | hnew | hsame
    · exact completeCount_raise_declaredChannelCount hzero
    · exact completeCount_raise_declaredChannelCount hceil
    · exact execHighNew_declaredChannelCount hnew
    · exact execHighSame_declaredChannelCount hsame
  rw [hcount, execLowStore_declaredChannelCount hlow]
  exact Laws.frameCount_toNat lo hi

end Sys2Proof.Machine

/-! The sink never feeds back (R48): its bytes are written by `SinkWrite` and dropped by a new count, and
nothing reads them. Each part of a step is shown blind to them; a step put together of blind parts is
blind. -/

namespace Sys2Proof.Machine

open Claims

/-! ## Parts of a step that are blind to the sink's bytes -/

/-- The sink with other bytes, its count kept. -/
def State.withChannels (m : List Host.Cell) (s : State) : State :=
  { s with sink := ⟨s.sink.count, m⟩ }

/-- A part of a step does not read the sink's bytes: run on other bytes it ends alike. -/
def SinkBlind (f : State → Result) : Prop :=
  ∀ (s : State) (m : List Host.Cell), Agree SameButChannels (f s) (f (s.withChannels m))

theorem SinkBlind.agree {f : State → Result} (hf : SinkBlind f) {s u : State}
    (h : SameButChannels s u) : Agree SameButChannels (f s) (f u) := by
  have hu : u = s.withChannels u.sink.channels := h
  rw [hu]
  exact hf s _

/-- A part that agrees, followed by a blind part, agrees. -/
theorem SinkBlind.andThen_agree {f : State → Result} (hf : SinkBlind f) {r q : Result}
    (h : Agree SameButChannels r q) : Agree SameButChannels (andThen r f) (andThen q f) := by
  cases r with
  | next t => cases q with
    | next u => exact hf.agree h
    | fault | refused => exact h.elim
  | fault e => cases q with
    | fault => exact h
    | next | refused => exact h.elim
  | refused e => cases q with
    | refused => exact h
    | next | fault => exact h.elim

/-- A blind part after another is blind. -/
theorem SinkBlind.andThen {f g : State → Result} (hf : SinkBlind f) (hg : SinkBlind g) :
    SinkBlind fun s => andThen (f s) g :=
  fun s m => hg.andThen_agree (hf s m)

/-- An update of the state does not read the sink's bytes: on other bytes it gives the same state, but
for those. -/
def BlindUpdate (F : State → State) : Prop :=
  ∀ (s : State) (m : List Host.Cell), SameButChannels (F s) (F (s.withChannels m))

/-- A part that is one blind update is blind. -/
theorem BlindUpdate.next {F : State → State} (hF : BlindUpdate F) : SinkBlind fun s => .next (F s) :=
  hF

/-- A blind part after a blind update is blind. -/
theorem SinkBlind.comp {f : State → Result} {F : State → State} (hf : SinkBlind f)
    (hF : BlindUpdate F) : SinkBlind fun s => f (F s) :=
  fun s m => hf.agree (hF s m)

/-- A blind update after another is blind. -/
theorem BlindUpdate.comp {F G : State → State} (hG : BlindUpdate G) (hF : BlindUpdate F) :
    BlindUpdate fun s => G (F s) :=
  hG.next.comp hF

/-! ## The shared operations -/

theorem id_blind : BlindUpdate fun s => s := fun _ _ => rfl

theorem emit_blind (e : Event) : BlindUpdate (.emit e) := fun _ _ => rfl

theorem goto_blind (st : DecoderState) : BlindUpdate (.goto st) := fun _ _ => rfl

theorem enterData_blind : BlindUpdate .enterData := fun _ _ => rfl

theorem stepIndex_blind : BlindUpdate .stepIndex := fun _ _ => rfl

theorem byteDone_sinkBlind : SinkBlind byteDone := fun _ _ => rfl

/-- The full reset empties the sink, whatever it held (R127). -/
theorem fullReset_blind : BlindUpdate .fullReset := fun _ _ => rfl

/-- A new count empties the sink, whatever it held (R39), and is refused by its own size alone. -/
theorem sinkConfigure_sinkBlind (n : Nat) : SinkBlind (sinkConfigure n) :=
  fun _ _ => agree_ite rfl rfl

/-- A write stages its byte among those held, and is refused by the sink's count alone. -/
theorem memWrite_sinkBlind (i : Nat) (v : Byte) : SinkBlind (memWrite i v) :=
  fun _ _ => agree_ite rfl rfl

/-- The configuration chooses the hook: the one empties the sink, the other keeps it. -/
theorem raise_blind (tag : FaultTag) : BlindUpdate (.raise tag) := by
  intro s m
  cases hook : s.cfg.errHook with
  | default => rw [raise_default hook, raise_default (s := s.withChannels m) hook]; rfl
  | notifyOnly => rw [raise_notifyOnly hook, raise_notifyOnly (s := s.withChannels m) hook]; rfl

theorem abortHeader_blind : BlindUpdate .abortHeader := by
  intro s m
  cases hook : s.cfg.errHook with
  | default => rw [abortHeader_default s hook, abortHeader_default (s.withChannels m) hook]; rfl
  | notifyOnly =>
    rw [abortHeader_notifyOnly s hook, abortHeader_notifyOnly (s.withChannels m) hook]; rfl

/-! ## The byte step in one piece (R83) -/

theorem mismatch_sinkBlind : SinkBlind fun s => .next ((s.raise .mismatch).goto .start) :=
  ((goto_blind .start).comp (raise_blind .mismatch)).next

theorem processFinish_sinkBlind (ch : Byte) : SinkBlind (processFinish ch) :=
  fun s m => agree_ite rfl (mismatch_sinkBlind s m)

theorem processHigh_sinkBlind (d : BitVec 16) : SinkBlind (processHigh d) := by
  intro s m
  refine agree_ite ?fault (agree_ite ?new ?same)
  case fault => exact (abortHeader_blind.comp (raise_blind _)).next s m
  case new =>
    exact enterData_blind.next.andThen_agree (sinkConfigure_sinkBlind d.toNat (s.activate d) m)
  case same => exact enterData_blind s m

/-- The case of the state: which one, and the branch in it, the registers say (R83). -/
theorem processCase_sinkBlind (ch : Byte) : SinkBlind (processCase ch) := by
  intro s m
  have hst' : (s.withChannels m).state = s.state := rfl
  cases hst : s.state with simp only [processCase, hst', hst]
  | start => exact agree_ite (goto_blind .command s m) (mismatch_sinkBlind s m)
  | command => exact agree_ite (goto_blind .lowChannel s m) (mismatch_sinkBlind s m)
  | lowChannel => exact goto_blind .highChannel (s.setLowCount ch) m
  | highChannel => exact processHigh_sinkBlind _ (s.completeCount ch) m
  | data =>
    exact agree_ite (stepIndex_blind.next.andThen_agree (memWrite_sinkBlind _ ch s m))
      (processFinish_sinkBlind ch (s.goto .finish) m)
  | finish => exact processFinish_sinkBlind ch s m

/-- A resynchronization (R64) is a fault and two writes of the state register. -/
theorem execPbResync_sinkBlind (st : DecoderState) : SinkBlind (execPbResync st) := by
  have hresync : BlindUpdate fun s => ((s.raise .resync).goto .start).goto .command :=
    (goto_blind .command).comp ((goto_blind .start).comp (raise_blind .resync))
  exact fun s m => byteDone_sinkBlind.comp hresync (s.storeByte s.cfg.startDelim) m

/-- Which of the three stages a code takes (R52), the registers and the idle timer say. -/
theorem processByte_sinkBlind (raw : Byte) : SinkBlind (processByte raw) := by
  intro s m
  by_cases hb : raw < s.cfg.charBase
  · rw [processByte_ignored hb, processByte_ignored (s := s.withChannels m) hb]
    exact id_blind s m
  by_cases hr : resyncs raw s
  · rw [processByte_resync hb hr, processByte_resync (s := s.withChannels m) hb hr]
    exact execPbResync_sinkBlind s.state s m
  · rw [processByte_stage3 hb hr, processByte_stage3 (s := s.withChannels m) hb hr]
    exact byteDone_sinkBlind.andThen_agree
      (processCase_sinkBlind (chOf s.cfg raw) (s.storeByte (chOf s.cfg raw)) m)

theorem processCodes_sinkBlind : ∀ codes : List Byte, SinkBlind (processCodes codes)
  | [] => id_blind.next
  | raw :: rest => (processByte_sinkBlind raw).andThen (processCodes_sinkBlind rest)

/-! ## The other operations -/

theorem hardwareReset_sinkBlind : SinkBlind hardwareReset := fun _ _ => agree_ite rfl rfl

theorem timerReset_sinkBlind (k : Nat) : SinkBlind (timerReset k) :=
  fun _ _ => agree_withTimer rfl fun _ => agree_ite rfl rfl

theorem helper_sinkBlind (factor : Nat) (sel : TimerSel) (t : Nat) :
    SinkBlind (helper factor sel t) := by
  intro s m
  have hp : (s.withChannels m).paramsOf sel = s.paramsOf sel := by cases sel <;> rfl
  simp only [helper, hp]
  cases s.paramsOf sel with
  | none => exact rfl
  | some p => exact agree_ite (emit_blind _ s m) rfl

/-- An operation on a timer writes that timer and the bit `due` (R56). -/
theorem decodeTimer_sinkBlind (k : Nat) (tOp : BitVec 3) (tArg : Nat) :
    SinkBlind (exec (decodeTimer k tOp tArg)) := by
  intro s m
  unfold decodeTimer
  split
  case h_5 | h_6 => exact agree_withTimer rfl fun _ => agree_ite rfl rfl
  all_goals exact agree_withTimer rfl fun _ => rfl

/-! ## The step -/

/-- What an input asks for, with other bytes in the sink of the state in which it runs. -/
def Fetched.withChannels (m : List Host.Cell) : Fetched → Fetched
  | .idle s => .idle (s.withChannels m)
  | .reset s => .reset (s.withChannels m)
  | .timerReset k s => .timerReset k (s.withChannels m)
  | .word w s => .word w (s.withChannels m)

theorem fetchCycle_withChannels (rst init v : Bool) (d : Byte) (s : State) (m : List Host.Cell) :
    fetchCycle rst init v d (s.withChannels m) = (fetchCycle rst init v d s).withChannels m := by
  unfold fetchCycle
  split
  · rfl
  split
  · rfl
  split <;> rfl

theorem fetchLine_withChannels (codes : List Byte) (now : Nat) (rest : List Input) (s : State)
    (m : List Host.Cell) :
    fetchLine codes now rest (s.withChannels m) = (fetchLine codes now rest s).withChannels m := by
  cases codes with
  | nil => rfl
  | cons raw more => rw [fetchLine, fetchLine, apply_ite (Fetched.withChannels m)]; rfl

/-- Accepting an input does not look at the sink, and hands it over. -/
theorem fetch_withChannels (s : State) (m : List Host.Cell) :
    fetch (s.withChannels m) = (fetch s).withChannels m := by
  have hin : (s.withChannels m).inputs = s.inputs := rfl
  unfold fetch
  rw [hin]
  cases s.inputs with
  | nil => rfl
  | cons i rest =>
    cases i with
    | cycle rst init v d now => exact fetchCycle_withChannels rst init v d (s.take rest now) m
    | line codes now => exact fetchLine_withChannels codes now rest s m
    | timer k rst tOp tArg now => cases rst <;> rfl
    | ms | seconds | minutes | hours | days => rfl

/-- A code is run as the byte step in one piece, from either sink. -/
theorem runWord_codeWord_sinkBlind (raw : Byte) : SinkBlind fun s => runWord (s.codeWord raw) s := by
  simpa only [runWord_codeWord_eq_processByte] using processByte_sinkBlind raw

/-- A frame is run as its codes, from either sink. -/
theorem runWord_frame_sinkBlind {s : State} {codes data : List Byte} (m : List Host.Cell)
    (hd : decodeFrame s.cfg codes = .ok (.wireFrame data)) :
    Agree SameButChannels (runWord (.frame codes) s) (runWord (.frame codes) (s.withChannels m)) := by
  rw [runWord_frame hd, runWord_frame (s := s.withChannels m) hd]
  exact processCodes_sinkBlind (frameCodes s.cfg data) s m

theorem runWord_helper_sinkBlind {sel : TimerSel} {t : Nat} {w : Word} (hw : isHelper sel t w) :
    SinkBlind (runWord w) := by
  rcases hw with rfl | rfl | rfl | rfl | rfl <;> exact helper_sinkBlind _ sel t

/-- Settles O59: the input is accepted alike (`fetch_withChannels`), and of all that it can ask for
(`fetch_cases`) each runs blind to the sink's bytes. -/
theorem sinkNeverFeedsBack : Obligations.SinkNeverFeedsBack := by
  intro s m
  change Agree SameButChannels (step s) (step (s.withChannels m))
  rw [step, step, fetch_withChannels]
  rcases fetch_cases s with h | ⟨rest, now, h | h | ⟨k, h⟩ | h | ⟨raw, h⟩ | ⟨k, tOp, tArg, h⟩ |
    ⟨codes, data, hd, h⟩ | ⟨sel, t, w, hw, h⟩⟩ <;> rw [h]
  · exact id_blind s.clearOut m
  · exact id_blind (s.take rest now) m
  · exact hardwareReset_sinkBlind (s.take rest now) m
  · exact timerReset_sinkBlind k (s.take rest now) m
  · exact fullReset_blind (s.take rest now) m
  · exact runWord_codeWord_sinkBlind raw (s.take rest now) m
  · exact decodeTimer_sinkBlind k tOp tArg (s.take rest now) m
  · exact runWord_frame_sinkBlind (s := s.take rest now) m hd
  · exact runWord_helper_sinkBlind hw (s.take rest now) m

end Sys2Proof.Machine

/-! The encodings (R49 to R57): an operation's word decodes to the operation, for codes, for timer
words and for whole frames; and the decoder takes a row exactly by the table's conditions. -/

namespace Sys2Proof.Machine

open Claims

/-! ## A code on the wire -/

@[simp] theorem chOf_rawOf (cfg : Config) (ch : Byte) : chOf cfg (rawOf cfg ch) = ch :=
  BitVec.add_sub_cancel ch cfg.charBase

/-- A code that can carry the offset is not below it on the wire (R49). -/
theorem not_rawOf_lt_charBase {cfg : Config} {ch : Byte} (h : cfg.fits ch = true) :
    ¬ rawOf cfg ch < cfg.charBase := by
  simp only [Config.fits, decide_eq_true_eq] at h
  rw [BitVec.not_lt, BitVec.le_def, rawOf, BitVec.toNat_add]
  omega

/-- The constraints of `Config.ok` that bear on a frame (R12). -/
theorem config_constraints {cfg : Config} (h : cfg.ok = true) :
    cfg.fits cfg.startDelim = true ∧ cfg.fits cfg.sendCommand = true ∧
      cfg.fits cfg.finishDelim = true ∧ cfg.idleTimeout ≤ horizon cfg.alarm.w ∧
      cfg.maxCeiling ≤ 512 := by
  simp only [Config.ok, Bool.and_eq_true, decide_eq_true_eq] at h
  obtain ⟨⟨⟨⟨⟨⟨hstart, hcommand⟩, hfinish⟩, hidle⟩, hceil⟩, -⟩, -⟩ := h
  exact ⟨hstart, hcommand, hfinish, hidle, hceil⟩

/-- A code under side conditions that are not due goes to stage 3 (R52, R53). -/
theorem decode_code_rawOf {cfg : Config} {side : Side} {ch : Byte} (st : DecoderState)
    (hf : cfg.fits ch = true) (hdue : side.due = false) :
    decode cfg (.code side st (rawOf cfg ch)) = .ok (decodeStage3 cfg side st ch) := by
  simp [decode, decodeCode, not_rawOf_lt_charBase hf, hdue]

/-! ## A whole frame -/

/-- The parts of `Config.frameOk`. -/
theorem frameOk_iff {cfg : Config} {data : List Byte} :
    cfg.frameOk data = true ↔ 1 ≤ data.length ∧ data.length ≤ cfg.maxCeiling ∧
      data.length < 65536 ∧ cfg.fits (BitVec.ofNat 8 data.length) = true ∧
      cfg.fits (BitVec.ofNat 8 (data.length / 256)) = true ∧ ∀ v ∈ data, cfg.fits v = true := by
  simp [Config.frameOk, and_assoc]

/-- The two length bytes of a count below `2^16` give it back (R41). -/
theorem toNat_frameCount_ofNat {n : Nat} (h : n < 65536) :
    (frameCount (BitVec.ofNat 8 n) (BitVec.ofNat 8 (n / 256))).toNat = n := by
  rw [Laws.frameCount_toNat, BitVec.toNat_ofNat, BitVec.toNat_ofNat]
  omega

/-- Every code of a frame can carry the offset. -/
theorem frameCodes_fit {cfg : Config} {data : List Byte} (hok : cfg.ok = true)
    (hdata : cfg.frameOk data = true) : ∀ raw ∈ frameCodes cfg data, ¬ raw < cfg.charBase := by
  obtain ⟨hstart, hcommand, hfinish, -⟩ := config_constraints hok
  obtain ⟨-, -, -, hlow, hhigh, hvalues⟩ := frameOk_iff.1 hdata
  intro raw hraw
  obtain ⟨ch, hch, rfl⟩ := List.mem_map.1 hraw
  apply not_rawOf_lt_charBase
  simp only [List.mem_cons, List.mem_append, List.not_mem_nil, or_false] at hch
  rcases hch with rfl | rfl | rfl | rfl | hch | rfl
  · exact hstart
  · exact hcommand
  · exact hlow
  · exact hhigh
  · exact hvalues ch hch
  · exact hfinish

theorem decodeFrameBody_append {cfg : Config} {data : List Byte} (hpos : 1 ≤ data.length)
    (hceil : data.length ≤ cfg.maxCeiling) :
    decodeFrameBody cfg data.length (data ++ [cfg.finishDelim]) = .ok (.wireFrame data) := by
  have hn : ¬ (data.length = 0 ∨ cfg.maxCeiling < data.length) := by omega
  rw [decodeFrameBody, if_neg hn]
  simp

/-- The codes of a frame decode to the frame (R49). -/
theorem decodeFrame_frameCodes {cfg : Config} {data : List Byte} (hok : cfg.ok = true)
    (hdata : cfg.frameOk data = true) :
    decodeFrame cfg (frameCodes cfg data) = .ok (.wireFrame data) := by
  obtain ⟨hpos, hceil, hlen, -⟩ := frameOk_iff.1 hdata
  have hbase : ¬ (frameCodes cfg data).any (fun raw => decide (raw < cfg.charBase)) = true := by
    simpa using frameCodes_fit hok hdata
  have hmap : (chOf cfg ∘ rawOf cfg) = id := funext (chOf_rawOf cfg)
  rw [decodeFrame, if_neg hbase, frameCodes, List.map_map, hmap, List.map_id]
  simp only [decodeFrameCh, ne_eq, not_true_eq_false, if_false]
  rw [toNat_frameCount_ofNat hlen, decodeFrameBody_append hpos hceil]

/-- Settles O5: a code is `decode_code_rawOf`, an ignored code and a resynchronization are the first
two stages of R52, a frame is `decodeFrame_frameCodes`, and every other word names its operation. -/
theorem decodeOfEncodeIsTheInstruction : Obligations.DecodeOfEncodeIsTheInstruction := by
  intro cfg i hok hwf
  obtain ⟨hstart, hcommand, hfinish, -⟩ := config_constraints hok
  cases i with simp only [Instr.wf, Bool.and_eq_true, decide_eq_true_eq] at hwf
  | pbIgnore raw => exact congrArg Except.ok (if_pos hwf)
  | pbResync sss => simp [encode, decode, decodeCode, not_rawOf_lt_charBase hstart, hwf]
  | startMatch => rw [encode, decode_code_rawOf _ hstart rfl]; simp [decodeStage3]
  | commandMatch => rw [encode, decode_code_rawOf _ hcommand rfl]; simp [decodeStage3]
  | finishMatch => rw [encode, decode_code_rawOf _ hfinish rfl]; simp [decodeStage3]
  | startMismatch ch | commandMismatch ch | finishMismatch ch =>
    obtain ⟨hfits, hne⟩ := hwf
    rw [encode, decode_code_rawOf _ hfits rfl]
    simp [decodeStage3, hne]
  | lowStore | highZero | highCeil | highNew | highSame | dataWrite | dataFull =>
    rw [encode, decode_code_rawOf _ hwf rfl]
    rfl
  | tReserved k x => cases x <;> rfl
  | wireFrame data => exact decodeFrame_frameCodes hok hwf
  | ctrlInit | tNop | tSet | tReset | tDueBy | tWait | tRepeat | uMs | uSeconds | uMinutes | uHours
  | uDays => rfl

/-! ## The dispatch table -/

/-- The row that stage 3 takes is selected by its conditions (R53). -/
theorem rowSelected_decodeStage3 {cfg : Config} {side : Side} {st : DecoderState} {raw : Byte}
    (h : AtStage3 cfg side st raw) :
    RowSelected cfg side st raw (decodeStage3 cfg side st (chOf cfg raw)) := by
  cases st with
  | start | command | finish =>
    simp only [decodeStage3]
    split
    case isTrue hch => exact ⟨h, rfl, hch⟩
    case isFalse hch => exact ⟨h, rfl, rfl, hch⟩
  | lowChannel => exact ⟨h, rfl, rfl⟩
  | highChannel =>
    cases hcount : side.count <;> simp only [decodeStage3, hcount] <;> exact ⟨h, rfl, rfl, hcount⟩
  | data =>
    cases hfull : side.full <;> simp only [decodeStage3, hfull] <;> exact ⟨h, rfl, rfl, hfull⟩

/-- The rows are exhaustive: the row taken is selected (R52). -/
theorem rowSelected_decodeCode (cfg : Config) (side : Side) (st : DecoderState) (raw : Byte) :
    RowSelected cfg side st raw (decodeCode cfg side st raw) := by
  unfold decodeCode
  split
  case isTrue hlt => exact ⟨hlt, rfl⟩
  case isFalse hbase =>
    have hle := BitVec.not_lt.1 hbase
    split
    case isTrue hsync =>
      obtain ⟨hst, hch, hdue⟩ := hsync
      exact ⟨hle, hst, hch, hdue, rfl⟩
    case isFalse hsync => exact rowSelected_decodeStage3 ⟨hle, hsync⟩

/-- At stage 3 the code is neither ignored nor a resynchronization. -/
theorem decodeCode_of_atStage3 {cfg : Config} {side : Side} {st : DecoderState} {raw : Byte}
    (h : AtStage3 cfg side st raw) :
    decodeCode cfg side st raw = decodeStage3 cfg side st (chOf cfg raw) := by
  obtain ⟨hbase, hsync⟩ := h
  rw [decodeCode, if_neg (BitVec.not_lt.2 hbase), if_neg hsync]

/-- The rows exclude each other: a selected row is the row taken. -/
theorem decodeCode_of_rowSelected {cfg : Config} {side : Side} {st : DecoderState} {raw : Byte}
    {i : Instr} (h : RowSelected cfg side st raw i) : decodeCode cfg side st raw = i := by
  cases i with
  | pbIgnore r =>
    obtain ⟨hlt, rfl⟩ := h
    exact if_pos hlt
  | pbResync sss =>
    obtain ⟨hbase, hst, hch, hdue, rfl⟩ := h
    exact (if_neg (BitVec.not_lt.2 hbase)).trans (if_pos ⟨hst, hch, hdue⟩)
  | startMatch | commandMatch | finishMatch =>
    obtain ⟨hstage, rfl, hch⟩ := h
    exact (decodeCode_of_atStage3 hstage).trans (if_pos hch)
  | startMismatch | commandMismatch | finishMismatch =>
    obtain ⟨hstage, rfl, rfl, hch⟩ := h
    exact (decodeCode_of_atStage3 hstage).trans (if_neg hch)
  | lowStore =>
    obtain ⟨hstage, rfl, rfl⟩ := h
    exact decodeCode_of_atStage3 hstage
  | highZero | highCeil | highNew | highSame | dataWrite | dataFull =>
    obtain ⟨hstage, rfl, rfl, hside⟩ := h
    simp [decodeCode_of_atStage3 hstage, decodeStage3, hside]
  | ctrlInit | tNop | tSet | tReset | tDueBy | tWait | tRepeat | tReserved | uMs | uSeconds
  | uMinutes | uHours | uDays | wireFrame => exact h.elim

/-- Settles O6: the rows are exhaustive and exclude each other. -/
theorem dispatchIsTheTable : Obligations.DispatchIsTheTable := by
  intro cfg side st raw i
  constructor
  · intro h
    cases h
    exact rowSelected_decodeCode cfg side st raw
  · exact fun h => congrArg Except.ok (decodeCode_of_rowSelected h)

/-- Settles O4: each word is read and decoded. -/
theorem decodesWordsOfTheTable : Obligations.DecodesWordsOfTheTable :=
  ⟨rfl, rfl, rfl, rfl, rfl, rfl, rfl⟩

/-! ## The timer port -/

/-- Writing a timer back as it was changes nothing but the bit `due` put out. -/
theorem timerDone_self {s : State} {k : Nat} {t : AlarmTimer} (h : s.timers[k]? = some t)
    (due : Bool) : s.timerDone k t due = { s with out := s.out ++ [.due k due] } := by
  obtain ⟨hk, rfl⟩ := List.getElem?_eq_some_iff.1 h
  simp [State.timerDone, State.setTimer, State.emit]

/-- Settles O35: each of the two operations writes its timer back as it was, with `t_due = 0`. -/
theorem nopAndReservedWriteNothing : Obligations.NopAndReservedWriteNothing := by
  refine ⟨fun k tArg => ⟨rfl, rfl, rfl⟩, fun k x s t ht => ?_⟩
  rw [exec, exec, execTNop, execTReserved, withTimer_some ht, timerDone_self ht]
  exact ⟨rfl, rfl⟩

end Sys2Proof.Machine

/-! Codes offered one by one and a whole line of codes (R49, R60). A byte step looks at neither the
queue nor the events already out, so it may be run apart from them; and from a good state every byte
step goes on. -/

namespace Sys2Proof.Machine

open Claims

/-! ## Codes at samples of their own -/

/-- The state at another sample. -/
def State.sampled (now : Nat) (s : State) : State :=
  { s with now := now }

/-- Codes delivered in order, each at a sample of its own. -/
def processTimed : List (Byte × Nat) → State → Result
  | [], s => .next s
  | (raw, now) :: rest, s => andThen (processByte raw (s.sampled now)) (processTimed rest)

/-- The codes of a line are codes at one sample (R60). -/
theorem processTimed_map_sample {now : Nat} (codes : List Byte) {s : State} (hnow : s.now = now) :
    processTimed (codes.map (·, now)) s = processCodes codes s := by
  induction codes generalizing s with
  | nil => rfl
  | cons raw rest ih =>
    subst hnow
    refine andThen_congr fun t ht => ih ?_
    obtain ⟨-, -, -, hnow, -⟩ := processByte_frame ht
    exact hnow

/-- What no byte step writes, codes at their samples do not write, but for the sample. -/
theorem processTimed_frame {codes : List (Byte × Nat)} {s t : State}
    (h : processTimed codes s = .next t) :
    ByteFrame (s.sampled (lastSample s.now codes)) t := by
  induction codes generalizing s with
  | nil => cases h; exact .refl t
  | cons c rest ih =>
    obtain ⟨u, hu, hrest⟩ := andThen_eq_next.1 h
    obtain ⟨hcfg, hparams, htimers, hnow, hinputs, htrace⟩ := processByte_frame hu
    have hlater := ih hrest
    rw [show u.now = c.2 from hnow] at hlater
    exact .trans (t := u.sampled (lastSample c.2 rest))
      ⟨hcfg, hparams, htimers, rfl, hinputs, htrace⟩ hlater

/-! ## The queue and the log are not read -/

/-- The state with another queue and another trace, and with events put out before its own. -/
def State.withLog (inputs : List Input) (trace before : List Event) (s : State) : State :=
  { s with inputs := inputs, trace := trace, out := before ++ s.out }

section
variable (inputs : List Input) (trace before : List Event) (s : State)

@[simp] theorem withLog_cfg : (s.withLog inputs trace before).cfg = s.cfg := rfl
@[simp] theorem withLog_state : (s.withLog inputs trace before).state = s.state := rfl
@[simp] theorem withLog_declaredChannelCount :
    (s.withLog inputs trace before).declaredChannelCount = s.declaredChannelCount := rfl
@[simp] theorem withLog_activeChannelCount :
    (s.withLog inputs trace before).activeChannelCount = s.activeChannelCount := rfl
@[simp] theorem withLog_writeIndex :
    (s.withLog inputs trace before).writeIndex = s.writeIndex := rfl

@[simp] theorem withLog_goto (st : DecoderState) :
    (s.withLog inputs trace before).goto st = (s.goto st).withLog inputs trace before := rfl
@[simp] theorem withLog_storeByte (ch : Byte) :
    (s.withLog inputs trace before).storeByte ch =
      (s.storeByte ch).withLog inputs trace before := rfl
@[simp] theorem withLog_setLowCount (ch : Byte) :
    (s.withLog inputs trace before).setLowCount ch =
      (s.setLowCount ch).withLog inputs trace before := rfl
@[simp] theorem withLog_completeCount (ch : Byte) :
    (s.withLog inputs trace before).completeCount ch =
      (s.completeCount ch).withLog inputs trace before := rfl
@[simp] theorem withLog_activate (d : BitVec 16) :
    (s.withLog inputs trace before).activate d = (s.activate d).withLog inputs trace before := rfl
@[simp] theorem withLog_enterData :
    (s.withLog inputs trace before).enterData = s.enterData.withLog inputs trace before := rfl
@[simp] theorem withLog_stepIndex :
    (s.withLog inputs trace before).stepIndex = s.stepIndex.withLog inputs trace before := rfl
@[simp] theorem withLog_touch :
    (s.withLog inputs trace before).touch = s.touch.withLog inputs trace before := rfl

@[simp] theorem withLog_emit (e : Event) :
    (s.withLog inputs trace before).emit e = (s.emit e).withLog inputs trace before := by
  simp [State.emit, State.withLog]

@[simp] theorem withLog_accept :
    (s.withLog inputs trace before).accept = s.accept.withLog inputs trace before := by
  rw [State.accept, withLog_emit]; rfl

@[simp] theorem withLog_fullReset :
    (s.withLog inputs trace before).fullReset = s.fullReset.withLog inputs trace before := by
  simp [State.fullReset, State.withLog]

@[simp] theorem withLog_raise (tag : FaultTag) :
    (s.withLog inputs trace before).raise tag = (s.raise tag).withLog inputs trace before := by
  cases hook : s.cfg.errHook <;> simp [State.raise, State.errorHook, hook]

@[simp] theorem withLog_abortHeader :
    (s.withLog inputs trace before).abortHeader = s.abortHeader.withLog inputs trace before := by
  cases hook : s.cfg.errHook <;> simp [State.abortHeader, hook]

end

/-- A part of a step reads neither the queue nor the events out before it: with others it ends
alike. -/
def LogBlind (f : State → Result) : Prop :=
  ∀ (s : State) (inputs : List Input) (trace before : List Event),
    f (s.withLog inputs trace before) = andThen (f s) fun t => .next (t.withLog inputs trace before)

theorem sinkConfigure_logBlind (n : Nat) : LogBlind (sinkConfigure n) := by
  intro s inputs trace before
  by_cases h : n ≤ sinkCapacity <;> simp [sinkConfigure, h, State.sinkSetCount, State.withLog]

theorem memWrite_logBlind (i : Nat) (v : Byte) : LogBlind (memWrite i v) := by
  intro s inputs trace before
  by_cases h : i < s.sink.count <;> simp [memWrite, h, State.sinkStage, State.withLog]

theorem processFinish_logBlind (ch : Byte) : LogBlind (processFinish ch) := by
  intro s inputs trace before
  by_cases h : ch = s.cfg.finishDelim <;> simp [processFinish, h]

theorem processHigh_logBlind (d : BitVec 16) : LogBlind (processHigh d) := by
  intro s inputs trace before
  by_cases hzero : d = 0#16
  · simp [processHigh, hzero]
  by_cases hceil : s.cfg.maxCeiling < d.toNat
  · simp [processHigh, hceil]
  by_cases hnew : d.toNat = s.activeChannelCount.toNat
  · rw [hnew] at hceil
    simp [processHigh, hzero, hceil, hnew]
  · simp [processHigh, hzero, hceil, hnew, sinkConfigure_logBlind _ (s.activate d), andThen_assoc]

theorem processCase_logBlind (ch : Byte) : LogBlind (processCase ch) := by
  intro s inputs trace before
  cases hst : s.state with simp only [processCase, withLog_state, hst]
  | start => by_cases h : ch = s.cfg.startDelim <;> simp [h]
  | command => by_cases h : ch = s.cfg.sendCommand <;> simp [h]
  | lowChannel => simp
  | highChannel => exact processHigh_logBlind _ (s.completeCount ch) inputs trace before
  | data =>
    by_cases h : s.writeIndex < s.activeChannelCount
    · simp [h, memWrite_logBlind _ ch s, andThen_assoc]
    · simpa [h] using processFinish_logBlind ch (s.goto .finish) inputs trace before
  | finish => exact processFinish_logBlind ch s inputs trace before

theorem processByte_logBlind (raw : Byte) : LogBlind (processByte raw) := by
  intro s inputs trace before
  by_cases hb : raw < s.cfg.charBase
  · simp [processByte, hb]
  by_cases hr : resyncs raw s
  · rw [processByte_resync hb hr,
      processByte_resync (s := s.withLog inputs trace before) hb hr]
    simp [execPbResync, startMatched, byteDone]
  · rw [processByte_stage3 hb hr,
      processByte_stage3 (s := s.withLog inputs trace before) hb hr]
    simp [processCase_logBlind _ (s.storeByte (chOf s.cfg raw)), andThen_assoc, byteDone]

/-! ## Steps and codes -/

/-- What a run has left once its last outputs have joined the trace. -/
def settled (r : Result) : Result :=
  andThen r fun t => .next t.clearOut

theorem settled_eq_next {r : Result} {u : State} :
    settled r = .next u ↔ ∃ t, r = .next t ∧ t.clearOut = u := by
  simp [settled, andThen_eq_next]

theorem settled_andThen (r : Result) (f : State → Result) :
    settled (andThen r f) = andThen r fun s => settled (f s) :=
  andThen_assoc r f _

/-- Offered codes, one step each, do what the codes do at their samples, wherever the trace ends and
the outputs begin. -/
theorem settled_steps (codes : List (Byte × Nat)) (rest : List Input) {s : State}
    {trace before trace' before' : List Event} (hlog : trace ++ before = trace' ++ before') :
    settled (steps codes.length
      (s.withLog (codes.map (fun c => byteInput c.1 c.2) ++ rest) trace before)) =
    settled (processTimed codes (s.withLog rest trace' before')) := by
  induction codes generalizing s trace before trace' before' with
  | nil =>
    simp [steps, processTimed, settled, State.clearOut, State.withLog, ← List.append_assoc, hlog]
  | cons c codes ih =>
    obtain ⟨raw, now⟩ := c
    have hsteps : step (s.withLog (byteInput raw now ::
          (codes.map (fun c => byteInput c.1 c.2) ++ rest)) trace before) =
        processByte raw ((s.take [] now).withLog (codes.map (fun c => byteInput c.1 c.2) ++ rest)
          (trace ++ (before ++ s.out)) []) := step_byteInput rfl
    have htimed : (s.withLog rest trace' before').sampled now =
        (s.take [] now).withLog rest trace' (before' ++ s.out) := by
      simp [State.take, State.withLog, State.sampled]
    simp only [List.length_cons, List.map_cons, List.cons_append, steps, processTimed,
      settled_andThen]
    rw [hsteps, htimed, processByte_logBlind, processByte_logBlind, andThen_assoc, andThen_assoc]
    refine andThen_congr fun t _ => ih ?_
    simp [← List.append_assoc, hlog]

/-! ## From a good state every byte step goes on -/

theorem processFinish_total (ch : Byte) (s : State) : ∃ t, processFinish ch s = .next t := by
  unfold processFinish
  split <;> exact ⟨_, rfl⟩

theorem processHigh_total {s : State} (d : BitVec 16) (hceil : s.cfg.maxCeiling ≤ sinkCapacity) :
    ∃ t, processHigh d s = .next t := by
  unfold processHigh
  split
  case isTrue => exact ⟨_, rfl⟩
  case isFalse hrange =>
    have hd : d.toNat ≤ sinkCapacity := by omega
    split
    · exact ⟨_, andThen_eq_next.2 ⟨_, sinkConfigure_eq_next.2 ⟨hd, rfl⟩, rfl⟩⟩
    · exact ⟨_, rfl⟩

theorem processCase_total {s : State} (ch : Byte) (hs : s.Inv)
    (hceil : s.cfg.maxCeiling ≤ sinkCapacity) : ∃ t, processCase ch s = .next t := by
  cases hst : s.state with simp only [processCase, hst]
  | start | command => split <;> exact ⟨_, rfl⟩
  | lowChannel => exact ⟨_, rfl⟩
  | highChannel => exact processHigh_total _ hceil
  | data =>
    split
    case isTrue hlt =>
      obtain ⟨-, -, hcount, -⟩ := hs
      have hindex : s.writeIndex.toNat < s.sink.count := hcount ▸ hlt
      exact ⟨_, andThen_eq_next.2 ⟨_, memWrite_eq_next.2 ⟨hindex, rfl⟩, rfl⟩⟩
    case isFalse => exact processFinish_total ch _
  | finish => exact processFinish_total ch s

/-- A configuration that meets R12 has a ceiling that the sink takes. -/
theorem maxCeiling_le_sinkCapacity {cfg : Config} (h : cfg.ok = true) :
    cfg.maxCeiling ≤ sinkCapacity := by
  obtain ⟨-, -, -, -, hceil⟩ := config_constraints h
  exact hceil

theorem processByte_total {s : State} (raw : Byte) (hs : s.Inv) (hok : s.cfg.ok = true) :
    ∃ t, processByte raw s = .next t := by
  by_cases hb : raw < s.cfg.charBase
  · exact ⟨s, processByte_ignored hb⟩
  by_cases hr : resyncs raw s
  · exact ⟨_, processByte_resync hb hr⟩
  · obtain ⟨t, ht⟩ := processCase_total (s := s.storeByte (chOf s.cfg raw)) (chOf s.cfg raw) hs
      (maxCeiling_le_sinkCapacity hok)
    exact ⟨t.touch, by rw [processByte_stage3 hb hr, ht]; rfl⟩

theorem processCodes_total {s : State} (codes : List Byte) (hs : s.Inv) (hok : s.cfg.ok = true) :
    ∃ t, processCodes codes s = .next t := by
  induction codes generalizing s with
  | nil => exact ⟨s, rfl⟩
  | cons raw rest ih =>
    obtain ⟨t, ht⟩ := processByte_total raw hs hok
    obtain ⟨hcfg, -⟩ := processByte_frame ht
    obtain ⟨u, hu⟩ := ih (processByte_inv hs ht) (hcfg ▸ hok)
    exact ⟨u, andThen_eq_next.2 ⟨t, ht, hu⟩⟩

/-! ## A whole line -/

theorem length_frameCodes (cfg : Config) (data : List Byte) :
    (frameCodes cfg data).length = data.length + 5 := by
  simp [frameCodes]

/-- The step of a line that is one whole frame runs the frame's codes at its sample (R60). -/
theorem step_frameLine {s : State} {data : List Byte} {now : Nat} {rest : List Input}
    (hok : s.cfg.ok = true) (hdata : s.cfg.frameOk data = true)
    (hin : s.inputs = .line (frameCodes s.cfg data) now :: rest) :
    step s = processCodes (frameCodes s.cfg data) (s.take rest now) :=
  have hdec := decodeFrame_frameCodes hok hdata
  step_of_fetch_word (fetch_frame hin hdec) hdec

/-- Settles O51: the line runs its codes at one sample and goes on (`processCodes_total`); one by
one they do the same (`settled_steps`), with the outputs of each step in the trace. -/
theorem wholeFrameIsItsCodes : Obligations.WholeFrameIsItsCodes := by
  intro s data now rest hs hok hdata
  obtain ⟨u, hu⟩ := processCodes_total (s := s.take rest now) (frameCodes s.cfg data) hs hok
  have htimed : processTimed ((frameCodes s.cfg data).map (·, now))
      (s.clearOut.withLog rest (s.trace ++ s.out) []) = .next u :=
    (processTimed_map_sample _ (s := s.take rest now) rfl).trans hu
  have hsteps := settled_steps ((frameCodes s.cfg data).map (·, now)) rest
    (s := s.clearOut) (List.append_nil (s.trace ++ s.out)).symm
  rw [htimed, List.length_map, length_frameCodes, List.map_map] at hsteps
  obtain ⟨t, ht, hclear⟩ := settled_eq_next.1 hsteps
  refine ⟨t, u, ?_, ?_, hclear⟩
  · simpa [State.withLog, State.clearOut, Function.comp_def] using ht
  · exact (step_frameLine (s := { s with inputs := .line (frameCodes s.cfg data) now :: rest })
      hok hdata rfl).trans hu

end Sys2Proof.Machine

/-! A full valid frame, code by code (R49, R50, R64 to R79): each code finds its row, the header
sets the counts, each data byte goes to its channel, and the finish byte is accepted. -/

namespace Sys2Proof.Machine

open Claims

/-! ## The idle timer between two codes -/

/-- The idle timer was last touched at the state's own sample (R65). -/
def State.Stamped (s : State) : Prop :=
  s.alarm = ⟨s.cfg.alarm, coarsen s.cfg.tw s.cfg.alarm s.now⟩

theorem stamped_touch {s : State} (h : s.alarm.params = s.cfg.alarm) : s.touch.Stamped := by
  change (⟨s.alarm.params, coarsen s.cfg.tw s.alarm.params s.now⟩ : AlarmTimer) = _
  rw [h]
  rfl

/-- The idle timer's answer at a later sample, from its stamp (R64, R93). -/
theorem idleDue_sampled {s : State} (h : s.Stamped) (now : Nat) :
    (s.sampled now).idleDue = dueBy (coarsen s.cfg.tw s.cfg.alarm now)
      (coarsen s.cfg.tw s.cfg.alarm s.now) (BitVec.ofNat s.cfg.alarm.w s.cfg.idleTimeout) := by
  change s.alarm.dueBy s.cfg.tw now s.cfg.idleTimeout = _
  rw [h]
  rfl

/-- A code before which no start delimiter is late does not resynchronize (R64). -/
theorem not_resyncs_of_noResync {s : State} {raw : Byte} {now : Nat} {later : List (Byte × Nat)}
    (hs : s.Stamped) (h : NoResync s.cfg s.now ((raw, now) :: later)) :
    ¬ resyncs raw (s.sampled now) := by
  obtain ⟨hlate, -⟩ := h
  rintro ⟨-, hch, hdue⟩
  rw [idleDue_sampled hs, hlate hch] at hdue
  cases hdue

/-- An idle timeout inside the horizon is not over at the sample of the stamp itself (R103). -/
theorem dueBy_self {w n : Nat} (c : BitVec w) (hpos : 0 < n) (hn : n ≤ horizon w) :
    dueBy c c (BitVec.ofNat w n) = false := by
  have hw : 0 < w := by
    rcases Nat.eq_zero_or_pos w with rfl | hw
    · have hzero : horizon 0 = 0 := rfl
      omega
    · exact hw
  have hpow : 2 ^ (w - 1) * 2 = 2 ^ w := Nat.two_pow_pred_mul_two hw
  have hhalf : n < 2 ^ (w - 1) := by unfold horizon at hn; omega
  have hnat : (BitVec.ofNat w n).toNat = n := by
    rw [BitVec.toNat_ofNat]
    exact Nat.mod_eq_of_lt (by omega)
  have hint : (BitVec.ofNat w n).toInt = n := by
    rw [BitVec.toInt_eq_toNat_of_lt (by omega), hnat]
  have hmin : BitVec.ofNat w n ≠ BitVec.intMin w := by
    intro h
    have := congrArg BitVec.toNat h
    rw [hnat, BitVec.toNat_intMin_of_pos hw] at this
    omega
  have hneg : (c - (c + BitVec.ofNat w n)).toInt = -(n : Int) := by
    rw [sub_add_cancel_left, BitVec.toInt_neg_of_ne_intMin hmin, hint]
  rw [dueBy, hneg, decide_eq_false_iff_not]
  omega

/-- Codes that all arrive at the sample of the stamp meet no idle timer due. -/
theorem noResync_of_one_sample {cfg : Config} (now : Nat) (hpos : 0 < cfg.idleTimeout)
    (hhorizon : cfg.idleTimeout ≤ horizon cfg.alarm.w) (codes : List Byte) :
    NoResync cfg now (codes.map (·, now)) := by
  induction codes with
  | nil => trivial
  | cons raw rest ih => exact ⟨fun _ => dueBy_self _ hpos hhorizon, ih⟩

theorem lastSample_map_sample (now : Nat) (codes : List Byte) :
    lastSample now (codes.map (·, now)) = now := by
  induction codes with
  | nil => rfl
  | cons raw rest ih => exact ih

/-! ## One code of the frame -/

/-- A good state between two codes, the last of which arrived at `last`. -/
def Ready (cfg : Config) (last : Nat) (s : State) : Prop :=
  s.Inv ∧ s.Stamped ∧ s.cfg = cfg ∧ s.now = last

/-- The code `ch` offered at the sample `now` takes `s` to `t`, which is again between two codes. -/
def Takes (cfg : Config) (ch : Byte) (now : Nat) (s t : State) : Prop :=
  Ready cfg now t ∧
    ∀ later, processTimed ((rawOf cfg ch, now) :: later) s = processTimed later t

/-- A code that is neither ignored nor a resynchronization runs the case of the state (R83), with
its store before and the timer touch after. -/
theorem takes_of_not_resyncs {s u : State} {ch : Byte} {now : Nat} (hs : s.Inv)
    (hf : s.cfg.fits ch = true) (hr : ¬ resyncs (rawOf s.cfg ch) (s.sampled now))
    (hu : processCase ch ((s.sampled now).storeByte ch) = .next u) :
    Takes s.cfg ch now s u.touch := by
  have hbyte : processByte (rawOf s.cfg ch) (s.sampled now) = .next u.touch := by
    refine (processByte_stage3 (s := s.sampled now) (not_rawOf_lt_charBase hf) hr).trans ?_
    have hch : chOf (s.sampled now).cfg (rawOf (s.sampled now).cfg ch) = ch := chOf_rawOf s.cfg ch
    rw [hch, hu]
    rfl
  have hinv : u.touch.Inv := processByte_inv (s := s.sampled now) hs hbyte
  obtain ⟨hcfg, -, -, hnow, -⟩ := processByte_frame hbyte
  exact ⟨⟨hinv, stamped_touch hinv.alarm, hcfg, hnow⟩, fun later => by
    rw [processTimed, hbyte, andThen_next]⟩

/-- A code of the frame after the first one. -/
theorem Ready.takes {cfg : Config} {s u : State} {ch : Byte} {last now : Nat}
    {later : List (Byte × Nat)} (hs : Ready cfg last s) (hf : cfg.fits ch = true)
    (hno : NoResync cfg last ((rawOf cfg ch, now) :: later))
    (hu : processCase ch ((s.sampled now).storeByte ch) = .next u) :
    Takes cfg ch now s u.touch := by
  obtain ⟨hinv, hstamp, rfl, rfl⟩ := hs
  exact takes_of_not_resyncs hinv hf (not_resyncs_of_noResync hstamp hno) hu

/-! ## The rows of a frame in R83's case of the state -/

section
variable {s : State}

theorem processCase_start (hst : s.state = .start) :
    processCase s.cfg.startDelim s = .next (s.goto .command) := by
  simp [processCase, hst]

theorem processCase_command (hst : s.state = .command) :
    processCase s.cfg.sendCommand s = .next (s.goto .lowChannel) := by
  simp [processCase, hst]

theorem processCase_lowChannel (ch : Byte) (hst : s.state = .lowChannel) :
    processCase ch s = .next ((s.setLowCount ch).goto .highChannel) := by
  simp [processCase, hst]

/-- The state after a header of the count `d`: configured anew where the count is new (R75, R76). -/
def State.countTaken (d : BitVec 16) (s : State) : State :=
  if d.toNat = s.activeChannelCount.toNat then s.enterData
  else ((s.activate d).sinkSetCount d.toNat).enterData

theorem processCase_highChannel {ch : Byte} {d : BitVec 16} (hst : s.state = .highChannel)
    (hd : highCount s.declaredChannelCount ch = d) (hpos : 1 ≤ d.toNat)
    (hceil : d.toNat ≤ s.cfg.maxCeiling) (hcap : s.cfg.maxCeiling ≤ sinkCapacity) :
    processCase ch s = .next ((s.completeCount ch).countTaken d) := by
  have hzero : ¬ d = 0#16 := by rintro rfl; simp at hpos
  have hsink : d.toNat ≤ sinkCapacity := hceil.trans hcap
  by_cases hsame : d.toNat = s.activeChannelCount.toNat
  · rw [hsame] at hceil
    simp [processCase, hst, hd, processHigh, hzero, hsame, Nat.not_lt.2 hceil, State.countTaken]
  · simp [processCase, hst, hd, processHigh, hzero, hsame, Nat.not_lt.2 hceil, sinkConfigure, hsink,
      State.countTaken]

theorem processCase_data {ch : Byte} (hst : s.state = .data)
    (hlt : s.writeIndex < s.activeChannelCount) (hsink : s.writeIndex.toNat < s.sink.count) :
    processCase ch s = .next (s.sinkStage s.writeIndex.toNat ch).stepIndex := by
  simp [processCase, hst, hlt, memWrite, hsink]

theorem processCase_full (hst : s.state = .data) (hfull : ¬ s.writeIndex < s.activeChannelCount) :
    processCase s.cfg.finishDelim s = .next ((s.goto .finish).accept.goto .start) := by
  simp [processCase, hst, hfull, processFinish]

end

/-! ## The data -/

theorem writesFrom_append (i : Nat) (vs : List Byte) (v : Byte) :
    writesFrom i (vs ++ [v]) = writesFrom i vs ++ [.sinkWrite (i + vs.length) v] := by
  induction vs generalizing i with
  | nil => rfl
  | cons u vs ih => simp [writesFrom, ih, Nat.add_assoc, Nat.add_comm 1]

/-- A frame of `n` channels of which the values `stored` have arrived; `out` is what was put out
before the first of them. -/
def Storing (n : Nat) (out : List Event) (stored : List Byte) (s : State) : Prop :=
  s.state = .data ∧ s.activeChannelCount.toNat = n ∧ s.declaredChannelCount.toNat = n ∧
  s.writeIndex.toNat = stored.length ∧ s.out = out ++ writesFrom 0 stored ∧
  ∀ a < stored.length, s.channel a = stored[a]?

theorem Storing.touch {n : Nat} {out : List Event} {stored : List Byte} {s : State}
    (h : Storing n out stored s) : Storing n out stored s.touch := h

/-- The event of a header of the count `n` where `active` is the count before: `Cfg(n)` where it is
new (R75, R76). -/
def countEvents (active : BitVec 10) (n : Nat) : List Event :=
  if n = active.toNat then [] else [.sinkCfg n]

/-- After the header no value has arrived. -/
theorem storing_countTaken {s : State} {d : BitVec 16} (hd : d.toNat ≤ sinkCapacity)
    (hdeclared : s.declaredChannelCount = d) :
    Storing d.toNat (s.out ++ countEvents s.activeChannelCount d.toNat) [] (s.countTaken d) := by
  by_cases hsame : d.toNat = s.activeChannelCount.toNat <;>
    simp [Storing, State.countTaken, countEvents, hsame, hdeclared, toNat_activeCount hd,
      writesFrom]

/-- One more value is written to the channel after the last (R77, R85). -/
theorem Storing.snoc {n : Nat} {out : List Event} {stored : List Byte} {s : State} (v : Byte)
    (hs : Storing n out stored s) (hn : n ≤ 512) (hlen : stored.length < n) :
    Storing n out (stored ++ [v]) (s.sinkStage s.writeIndex.toNat v).stepIndex := by
  obtain ⟨hst, hactive, hdeclared, hindex, hout, hchannels⟩ := hs
  refine ⟨hst, hactive, hdeclared, ?index, ?out, ?channels⟩
  case index =>
    have hsmall : (s.writeIndex + 1).toNat = s.writeIndex.toNat + 1 := by
      change (s.writeIndex.toNat + 1) % 1024 = _
      omega
    simpa [hindex] using hsmall
  case out => simp [hout, writesFrom_append, hindex]
  case channels =>
    intro a ha
    have hread : ((s.sinkStage s.writeIndex.toNat v).stepIndex).channel a =
        if a = stored.length then some v else s.channel a := by
      rw [← hindex]
      exact Memory.read_write s.sink.channels s.writeIndex.toNat a v
    rw [hread]
    by_cases hlast : a = stored.length
    · simp [hlast]
    · rw [List.length_append, List.length_singleton] at ha
      have hbefore : a < stored.length := by omega
      rw [if_neg hlast, hchannels a hbefore, List.getElem?_append_left hbefore]

/-- A value with its channel still to fill is stored (R77). -/
theorem Storing.step {cfg : Config} {n last now : Nat} {out : List Event} {stored : List Byte}
    {s : State} {v : Byte} {later : List (Byte × Nat)} (hs : Storing n out stored s)
    (hready : Ready cfg last s) (hn : n ≤ 512) (hlen : stored.length < n) (hf : cfg.fits v = true)
    (hno : NoResync cfg last ((rawOf cfg v, now) :: later)) :
    ∃ t, Takes cfg v now s t ∧ Storing n out (stored ++ [v]) t := by
  obtain ⟨⟨-, -, hcount, -⟩, -⟩ := id hready
  obtain ⟨hst, hactive, -, hindex, -⟩ := id hs
  have hlt : s.writeIndex.toNat < s.activeChannelCount.toNat := by omega
  have hcase := processCase_data (s := (s.sampled now).storeByte v) (ch := v) hst hlt (hcount ▸ hlt)
  have hs' : Storing n out stored ((s.sampled now).storeByte v) := hs
  exact ⟨_, hready.takes hf hno hcase, (hs'.snoc v hn hlen).touch⟩

/-- What the finish byte leaves once every value is stored (R78, R79). -/
def FrameEnded (n : Nat) (out : List Event) (data : List Byte) (t : State) : Prop :=
  t.state = .start ∧ t.okIndicator = true ∧ t.activeChannelCount.toNat = n ∧
  t.declaredChannelCount.toNat = n ∧ t.writeIndex.toNat = data.length ∧
  t.pendingByte = t.cfg.finishDelim ∧ t.out = out ++ writesFrom 0 data ++ [.accepted] ∧
  ∀ a < data.length, t.channel a = data[a]?

/-- With every channel filled the finish byte ends the frame (R78, R79). -/
theorem Storing.finish {cfg : Config} {last now : Nat} {out : List Event} {data : List Byte}
    {s : State} (hs : Storing data.length out data s) (hready : Ready cfg last s)
    (hf : cfg.fits cfg.finishDelim = true)
    (hno : NoResync cfg last [(rawOf cfg cfg.finishDelim, now)]) :
    ∃ t, Takes cfg cfg.finishDelim now s t ∧ FrameEnded data.length out data t := by
  obtain ⟨-, -, rfl, -⟩ := id hready
  obtain ⟨hst, hactive, hdeclared, hindex, hout, hchannels⟩ := hs
  have hfull : ¬ s.writeIndex.toNat < s.activeChannelCount.toNat := by omega
  have hcase := processCase_full (s := (s.sampled now).storeByte s.cfg.finishDelim) hst hfull
  exact ⟨_, hready.takes hf hno hcase, rfl, rfl, hactive, hdeclared, hindex, rfl,
    congrArg (· ++ [Event.accepted]) hout, hchannels⟩

/-- The values still to come, each to its channel, and then the finish byte. -/
theorem processTimed_data {cfg : Config} {n : Nat} {out : List Event} (hok : cfg.ok = true)
    (hn : n ≤ 512) (values : List Byte) {stored : List Byte} {s : State} {last : Nat}
    {later : List (Byte × Nat)} (hready : Ready cfg last s) (hs : Storing n out stored s)
    (hlen : stored.length + values.length = n) (hfits : ∀ v ∈ values, cfg.fits v = true)
    (hcodes : later.map (·.1) = (values ++ [cfg.finishDelim]).map (rawOf cfg))
    (hno : NoResync cfg last later) :
    ∃ t, processTimed later s = .next t ∧ Ready cfg (lastSample last later) t ∧
      FrameEnded n out (stored ++ values) t := by
  induction values generalizing stored s last later with
  | nil =>
    obtain ⟨⟨raw, now⟩, rfl, rfl⟩ : ∃ c, later = [c] ∧ c.1 = rawOf cfg cfg.finishDelim := by
      simpa [List.map_eq_cons_iff] using hcodes
    obtain rfl : stored.length = n := hlen
    rw [List.append_nil]
    obtain ⟨-, -, hfinish, -⟩ := config_constraints hok
    obtain ⟨t, ⟨hready', hrun⟩, hend⟩ := hs.finish hready hfinish hno
    exact ⟨t, hrun [], hready', hend⟩
  | cons v values ih =>
    obtain ⟨⟨raw, now⟩, later, rfl, rfl, hlater⟩ := List.map_eq_cons_iff.1 hcodes
    obtain ⟨-, hnoLater⟩ := id hno
    have hmore : stored.length < n := by rw [← hlen]; simp
    have hlen' : (stored ++ [v]).length + values.length = n := by
      simp only [List.length_append, List.length_cons, List.length_nil] at hlen ⊢; omega
    obtain ⟨u, ⟨hready', hrun⟩, hs'⟩ := hs.step hready hn hmore (hfits v (by simp)) hno
    obtain ⟨t, ht, hlast, hend⟩ :=
      ih hready' hs' hlen' (fun w hw => hfits w (by simp [hw])) hlater hnoLater
    exact ⟨t, (hrun later).trans ht, hlast, by simpa using hend⟩

/-! ## The header -/

/-- Inside the header of a frame begun in `s`: nothing is configured and nothing put out yet. -/
def InHeader (s : State) (st : DecoderState) (t : State) : Prop :=
  t.state = st ∧ t.activeChannelCount = s.activeChannelCount ∧ t.out = s.out

section
variable {cfg : Config} {s t : State} {last now : Nat} {later : List (Byte × Nat)}

/-- The start delimiter in `Start`, where the idle timer is not looked at (R36, R67). -/
theorem takes_start (hs : s.Inv) (hst : s.state = .start) (hf : s.cfg.fits s.cfg.startDelim = true)
    (now : Nat) : ∃ t, Takes s.cfg s.cfg.startDelim now s t ∧ InHeader s .command t := by
  have hr : ¬ resyncs (rawOf s.cfg s.cfg.startDelim) (s.sampled now) := fun ⟨hne, _⟩ => hne hst
  have hcase := processCase_start (s := (s.sampled now).storeByte s.cfg.startDelim) hst
  exact ⟨_, takes_of_not_resyncs hs hf hr hcase, rfl, rfl, rfl⟩

/-- The command byte (R69). -/
theorem takes_command (hready : Ready cfg last t) (ht : InHeader s .command t)
    (hf : cfg.fits cfg.sendCommand = true)
    (hno : NoResync cfg last ((rawOf cfg cfg.sendCommand, now) :: later)) :
    ∃ u, Takes cfg cfg.sendCommand now t u ∧ InHeader s .lowChannel u := by
  obtain ⟨-, -, rfl, -⟩ := id hready
  obtain ⟨hst, hactive, hout⟩ := ht
  have hcase := processCase_command (s := (t.sampled now).storeByte t.cfg.sendCommand) hst
  exact ⟨_, hready.takes hf hno hcase, rfl, hactive, hout⟩

/-- The low byte of the count (R71). -/
theorem takes_lowCount {lo : Byte} (hready : Ready cfg last t) (ht : InHeader s .lowChannel t)
    (hf : cfg.fits lo = true) (hno : NoResync cfg last ((rawOf cfg lo, now) :: later)) :
    ∃ u, Takes cfg lo now t u ∧ InHeader s .highChannel u ∧
      u.declaredChannelCount = lo.setWidth 16 := by
  obtain ⟨hst, hactive, hout⟩ := ht
  have hcase := processCase_lowChannel (s := (t.sampled now).storeByte lo) lo hst
  exact ⟨_, hready.takes hf hno hcase, ⟨rfl, hactive, hout⟩, rfl⟩

/-- The high byte of a count in range (R75, R76). -/
theorem takes_highCount {lo hi : Byte} (hready : Ready cfg last t) (ht : InHeader s .highChannel t)
    (hdeclared : t.declaredChannelCount = lo.setWidth 16) (hpos : 1 ≤ (frameCount lo hi).toNat)
    (hceil : (frameCount lo hi).toNat ≤ cfg.maxCeiling) (hok : cfg.ok = true)
    (hf : cfg.fits hi = true) (hno : NoResync cfg last ((rawOf cfg hi, now) :: later)) :
    ∃ u, Takes cfg hi now t u ∧
      Storing (frameCount lo hi).toNat
        (s.out ++ countEvents s.activeChannelCount (frameCount lo hi).toNat) [] u := by
  obtain ⟨-, -, rfl, -⟩ := id hready
  obtain ⟨hst, hactive, hout⟩ := ht
  have hcap := maxCeiling_le_sinkCapacity hok
  have hd : highCount t.declaredChannelCount hi = frameCount lo hi := by rw [hdeclared, frameCount]
  have hcase := processCase_highChannel (s := (t.sampled now).storeByte hi) hst hd hpos hceil hcap
  have hstored := storing_countTaken (s := ((t.sampled now).storeByte hi).completeCount hi)
    (hceil.trans hcap) hd
  rw [← hactive, ← hout]
  exact ⟨_, hready.takes hf hno hcase, hstored.touch⟩

end

/-! ## The frame -/

/-- An index that is not listed reads as no value. -/
theorem Memory.read_eq_none {m : List Host.Cell} {a : Nat} (h : ∀ c ∈ m, c.1 ≠ a) :
    Memory.read m a = none := by
  induction m with
  | nil => rfl
  | cons c rest ih =>
    have hc : ¬ a = c.1 := fun hac => h c (by simp) hac.symm
    simpa [Memory.read, hc] using ih fun d hd => h d (by simp [hd])

/-- A channel that the sink does not have reads as no value (R37). -/
theorem State.Inv.channel_eq_none {s : State} (h : s.Inv) {a : Nat} (ha : s.sink.count ≤ a) :
    s.channel a = none := by
  obtain ⟨-, -, -, -, hrange, -⟩ := h
  simp only [Sink.inRange, List.all_eq_true, decide_eq_true_eq] at hrange
  exact Memory.read_eq_none fun c hc => ((hrange c hc).trans_le ha).ne

/-- Once every value is stored the sink holds the data and nothing else. -/
theorem FrameEnded.channel {out : List Event} {data : List Byte} {t : State}
    (h : FrameEnded data.length out data t) (ht : t.Inv) (a : Nat) : t.channel a = data[a]? := by
  obtain ⟨-, -, hactive, -, -, -, -, hchannels⟩ := h
  obtain ⟨-, -, hcount, -⟩ := id ht
  rcases Nat.lt_or_ge a data.length with ha | ha
  · exact hchannels a ha
  · rw [ht.channel_eq_none (by omega), List.getElem?_eq_none ha]

/-- A frame's end with what no byte step writes is all that `FrameStored` names. -/
theorem FrameEnded.stored {out : List Event} {data : List Byte} {s t : State} {last : Nat}
    (h : FrameEnded data.length out data t) (hs : s.Inv) (ht : Ready s.cfg last t)
    (hframe : ByteFrame (s.sampled last) t) : FrameStored s t data last := by
  obtain ⟨hinv, hstamp, hcfg, hnow⟩ := ht
  have hchannel := h.channel hinv
  obtain ⟨hst, hok, hactive, hdeclared, hindex, hpending, -⟩ := h
  obtain ⟨-, -, hcount, -⟩ := hinv
  obtain ⟨-, -, htimers, -⟩ := hframe
  refine ⟨hst, hok, hactive, hindex, hdeclared, hcfg ▸ hpending, ?alarm, hcount.trans hactive,
    hchannel, hcfg, htimers, hnow⟩
  rw [hstamp, hcfg, hnow, hs.alarm]

/-- The codes of a full valid frame met in `Start`, each at its sample: the header, the data, the
finish byte. -/
theorem processTimed_validFrame {s : State} {data : List Byte} {first : Nat}
    {later : List (Byte × Nat)} (hs : s.Inv) (hok : s.cfg.ok = true)
    (hdata : s.cfg.frameOk data = true) (hst : s.state = .start)
    (hcodes : frameCodes s.cfg data = rawOf s.cfg s.cfg.startDelim :: later.map (·.1))
    (hno : NoResync s.cfg first later) :
    ∃ t, processTimed ((rawOf s.cfg s.cfg.startDelim, first) :: later) s = .next t ∧
      t.out = s.out ++ frameEvents s data ∧ FrameStored s t data (lastSample first later) ∧
      t.inputs = s.inputs ∧ t.trace = s.trace := by
  obtain ⟨hstart, hcommand, -⟩ := config_constraints hok
  obtain ⟨hpos, hceil, hlen, hlo, hhi, hvalues⟩ := frameOk_iff.1 hdata
  have hcap : data.length ≤ 512 := hceil.trans (maxCeiling_le_sinkCapacity hok)
  have hcount := toNat_frameCount_ofNat hlen
  obtain ⟨-, hlater⟩ := List.cons_eq_cons.1 hcodes
  obtain ⟨⟨-, n1⟩, fromLow, rfl, rfl, hfromLow⟩ := List.map_eq_cons_iff.1 hlater.symm
  obtain ⟨⟨-, n2⟩, fromHigh, rfl, rfl, hfromHigh⟩ := List.map_eq_cons_iff.1 hfromLow
  obtain ⟨⟨-, n3⟩, body, rfl, rfl, hbody⟩ := List.map_eq_cons_iff.1 hfromHigh
  obtain ⟨-, hnoLow⟩ := id hno
  obtain ⟨-, hnoHigh⟩ := id hnoLow
  obtain ⟨-, hnoBody⟩ := id hnoHigh
  obtain ⟨t0, ⟨hready0, hrun0⟩, hhead0⟩ := takes_start hs hst hstart first
  obtain ⟨t1, ⟨hready1, hrun1⟩, hhead1⟩ := takes_command hready0 hhead0 hcommand hno
  obtain ⟨t2, ⟨hready2, hrun2⟩, hhead2, hdeclared⟩ := takes_lowCount hready1 hhead1 hlo hnoLow
  obtain ⟨t3, ⟨hready3, hrun3⟩, hstoring⟩ := takes_highCount hready2 hhead2 hdeclared
    (hcount.symm ▸ hpos) (hcount.symm ▸ hceil) hok hhi hnoHigh
  rw [hcount] at hstoring
  obtain ⟨t, hrun, hready, hend⟩ := processTimed_data hok hcap data hready3 hstoring (by simp)
    hvalues hbody hnoBody
  have hall := (hrun0 _).trans ((hrun1 _).trans ((hrun2 _).trans ((hrun3 _).trans hrun)))
  obtain ⟨-, -, -, -, hinputs, htrace⟩ := id (processTimed_frame hall)
  obtain ⟨-, -, -, -, -, -, hout, -⟩ := id hend
  refine ⟨t, hall, ?out, hend.stored hs hready (processTimed_frame hall), hinputs, htrace⟩
  simp [hout, frameEvents, countEvents]

/-- `FrameStored` does not look at the queue nor at the events. -/
theorem frameStored_of_clearOut_eq {s t u : State} {data : List Byte} {now : Nat}
    {rest : List Input} (h : t.clearOut = u.clearOut)
    (hu : FrameStored { s with inputs := rest } u data now) : FrameStored s t data now := by
  have hu' : FrameStored s u.clearOut data now := hu
  rw [← h] at hu'
  exact hu'

/-- Settles O52: both ways of offering the frame run its codes at their samples
(`processTimed_validFrame`); in one operation all samples are the same one
(`noResync_of_one_sample`), and offered one by one each is a step (`settled_steps`). -/
theorem validFrameIsAccepted : Obligations.ValidFrameIsAccepted := by
  refine ⟨?whole, ?oneByOne⟩
  case whole =>
    intro s data hs hok hdata hst hpos
    obtain ⟨-, -, -, hhorizon, -⟩ := config_constraints hok
    obtain ⟨codes, hcodes⟩ :
        ∃ codes, frameCodes s.cfg data = rawOf s.cfg s.cfg.startDelim :: codes := ⟨_, rfl⟩
    obtain ⟨t, ht, hout, hstored, hrest⟩ := processTimed_validFrame hs hok hdata hst
      (by simpa [Function.comp_def] using hcodes) (noResync_of_one_sample s.now hpos hhorizon codes)
    rw [lastSample_map_sample] at hstored
    refine ⟨t, ?_, hout, hstored, hrest⟩
    rw [exec, execWireFrame, hcodes, ← processTimed_map_sample _ rfl]
    exact ht
  case oneByOne =>
    intro s data first later rest hs hok hdata hst hcodes hno hin
    obtain ⟨u, hu, hout, hstored, hinputs, htrace⟩ := processTimed_validFrame
      (s := { s with inputs := rest }) hs hok hdata hst hcodes hno
    have hlength : data.length + 5 = ((rawOf s.cfg s.cfg.startDelim, first) :: later).length := by
      rw [← length_frameCodes s.cfg data, hcodes]; simp
    have hsteps := settled_steps ((rawOf s.cfg s.cfg.startDelim, first) :: later) rest (s := s)
      (trace := s.trace) (before := []) rfl
    have hqueue : s.withLog (((rawOf s.cfg s.cfg.startDelim, first) :: later).map
        (fun c => byteInput c.1 c.2) ++ rest) s.trace [] = s := by
      simp [State.withLog, ← hin]
    rw [hqueue, ← hlength] at hsteps
    obtain ⟨t, ht, hclear⟩ := settled_eq_next.1 (hsteps.trans (settled_eq_next.2 ⟨u, hu, rfl⟩))
    refine ⟨t, ht, ?observed, frameStored_of_clearOut_eq hclear hstored, ?inputs⟩
    case observed =>
      have htraces : t.observed = u.observed := congrArg State.trace hclear
      rw [htraces, State.observed, htrace, hout, ← List.append_assoc]
      rfl
    case inputs => exact (congrArg State.inputs hclear).trans hinputs

end Sys2Proof.Machine

/-! The byte operations row by row (R62 to R80): which row a code selects, and the whole next state
of its operation; and from the step in one piece (R83) the events (R84) and the `state` register
(R82) after a byte step. -/

namespace Sys2Proof.Machine

open Claims

/-! ## Which row a code selects -/

section
variable {cfg : Config} {side : Side} {raw : Byte}

/-- The decoder answers the row whose conditions hold (R52 to R54). -/
theorem decode_of_rowSelected {st : DecoderState} {i : Instr} (h : RowSelected cfg side st raw i) :
    decode cfg (.code side st raw) = .ok i :=
  (dispatchIsTheTable cfg side st raw i).2 h

/-- A code is ignored exactly below `CHAR_BASE` (R62). -/
theorem decode_eq_pbIgnore_iff {st : DecoderState} :
    decode cfg (.code side st raw) = .ok (.pbIgnore raw) ↔ raw < cfg.charBase :=
  (dispatchIsTheTable cfg side st raw _).trans (and_iff_left rfl)

end

section
variable {s : State} {ch : Byte}

theorem countClassOf_zero (h : completed s ch = 0) : s.countClassOf ch = .zero := if_pos h

theorem countClassOf_ceil (h0 : completed s ch ≠ 0)
    (hceil : s.cfg.maxCeiling < (completed s ch).toNat) : s.countClassOf ch = .ceil :=
  (if_neg h0).trans (if_pos hceil)

/-- A count in range is classed by whether it is the active one (R72). -/
theorem countClassOf_inRange (h0 : completed s ch ≠ 0)
    (hceil : (completed s ch).toNat ≤ s.cfg.maxCeiling) :
    s.countClassOf ch =
      if (completed s ch).toNat ≠ s.activeChannelCount.toNat then .new else .same :=
  (if_neg h0).trans (if_neg (Nat.not_lt.2 hceil))

theorem countClassOf_new (h0 : completed s ch ≠ 0)
    (hceil : (completed s ch).toNat ≤ s.cfg.maxCeiling)
    (hnew : (completed s ch).toNat ≠ s.activeChannelCount.toNat) : s.countClassOf ch = .new :=
  (countClassOf_inRange h0 hceil).trans (if_pos hnew)

theorem countClassOf_same (h0 : completed s ch ≠ 0)
    (hceil : (completed s ch).toNat ≤ s.cfg.maxCeiling)
    (hsame : (completed s ch).toNat = s.activeChannelCount.toNat) : s.countClassOf ch = .same :=
  (countClassOf_inRange h0 hceil).trans (if_neg (not_not.2 hsame))

/-- A channel is left to fill exactly where `writeIndex` is below the active count (R77). -/
theorem full_eq_false_iff : s.full = false ↔ s.writeIndex < s.activeChannelCount := by
  simp [State.full]

theorem full_of_eq (h : s.writeIndex = s.activeChannelCount) : s.full = true := by
  simp [State.full, h]

end

/-! ## The ends of a byte step -/

/-- The timer touch stamps the decoder's timer and writes nothing else (R65). -/
theorem byteDone_eq (s : State) : byteDone s = .next { s with alarm := stamp s } := rfl

/-- Taking a frame fault leaves what R109 and R110 say. -/
theorem raise_eq_afterFault (tag : FaultTag) (s : State) : s.raise tag = afterFault tag s := by
  cases hook : s.cfg.errHook with
  | default =>
    rw [raise_default hook]
    simp [afterFault, hook, State.fullReset, State.emit, stamp, AlarmTimer.rebase,
      AlarmTimer.schedule]
  | notifyOnly =>
    rw [raise_notifyOnly hook]
    simp [afterFault, hook, State.emit]

/-- The stamp is the same before and after a fault: neither hook writes what it is made of. -/
theorem stamp_afterFault (tag : FaultTag) (s : State) : stamp (afterFault tag s) = stamp s := by
  unfold afterFault
  split <;> rfl

/-- Where the state register is written after the fault, its value before does not show. -/
theorem goto_raise_goto (tag : FaultTag) (s : State) (st st' : DecoderState) :
    ((s.goto st).raise tag).goto st' = (s.raise tag).goto st' := by
  cases hook : s.cfg.errHook with
  | default => rw [raise_default hook, raise_default (s := s.goto st) hook]; rfl
  | notifyOnly => rw [raise_notifyOnly hook, raise_notifyOnly (s := s.goto st) hook]; rfl

/-- A fault, a transition and the timer touch. -/
theorem byteDone_raise_goto (tag : FaultTag) (s : State) (st : DecoderState) :
    byteDone ((s.raise tag).goto st) =
      .next { afterFault tag s with state := st, alarm := stamp s } := by
  rw [raise_eq_afterFault, byteDone_eq, ← stamp_afterFault tag s]
  rfl

/-- A header's fault: the default hook's reset stands, the notify-only hook goes on to `Data` (R73,
R74). -/
theorem byteDone_abortHeader (tag : FaultTag) (ch : Byte) (s : State) :
    byteDone (((s.storeByte ch).completeCount ch).raise tag).abortHeader =
      .next { abortedHeader tag ch s with alarm := stamp s } := by
  have hstamp : stamp (afterFault tag ((s.storeByte ch).completeCount ch)) = stamp s :=
    stamp_afterFault tag _
  rw [byteDone_eq, ← hstamp]
  cases hook : s.cfg.errHook with
  | default =>
    rw [abortHeader_default _ (by simpa using hook), raise_eq_afterFault]
    simp only [abortedHeader, hook]
    rfl
  | notifyOnly =>
    rw [abortHeader_notifyOnly _ (by simpa using hook), raise_eq_afterFault]
    simp only [abortedHeader, hook]
    rfl

/-! ## The operations of the rows -/

/-- Settles O18: the row is selected below `CHAR_BASE` alone, its operation is the identity, and the
step leaves the state in which the input was accepted. -/
theorem ignoredCodeChangesNothing : Obligations.IgnoredCodeChangesNothing := by
  refine ⟨fun _ _ _ _ => ⟨decode_eq_pbIgnore_iff, BitVec.toNat_sub_of_le⟩, fun _ _ => rfl, ?step⟩
  case step =>
    intro s raw now rest hb hin
    rw [step_byteInput hin, processByte_ignored (s := s.take rest now) hb]
    rfl

/-- Settles O19: a fault and a transition, with `Start` between the two overwritten. -/
theorem resyncAbortsAndRestarts : Obligations.ResyncAbortsAndRestarts :=
  ⟨fun _ _ _ _ hbase hst hch hdue => decode_of_rowSelected ⟨hbase, hst, hch, hdue, rfl⟩,
    fun _ s => byteDone_raise_goto .resync (s.storeByte s.cfg.startDelim) .command⟩

/-- Settles O21: a store, a transition and the timer touch. -/
theorem startAndCommandMatchAdvance : Obligations.StartAndCommandMatchAdvance :=
  ⟨fun _ _ _ hstage hch => decode_of_rowSelected ⟨hstage, rfl, hch⟩, fun _ => rfl,
    fun _ _ _ hstage hch => decode_of_rowSelected ⟨hstage, rfl, hch⟩, fun _ => rfl⟩

/-- Settles O22: the three rows are one and the same fault, with the return to `Start`. -/
theorem mismatchFaultsAndRestarts : Obligations.MismatchFaultsAndRestarts := by
  refine ⟨?start, ?command, ?finish, ?effect⟩
  case start | command | finish =>
    exact fun _ _ _ hstage hch => decode_of_rowSelected ⟨hstage, rfl, rfl, hch⟩
  case effect =>
    intro ch s
    have h := byteDone_raise_goto .mismatch (s.storeByte ch) .start
    exact ⟨h, h, h⟩

/-- Settles O23: a store, the low byte of the count, a transition and the timer touch. -/
theorem lowStoreKeepsTheLowByte : Obligations.LowStoreKeepsTheLowByte :=
  ⟨fun _ _ _ hstage => decode_of_rowSelected ⟨hstage, rfl, rfl⟩, fun _ _ => rfl⟩

/-- Settles O24: the zero test is the first of R72, and the fault is a header's. -/
theorem zeroHeaderAborts : Obligations.ZeroHeaderAborts :=
  ⟨fun _ _ hstage h0 => decode_of_rowSelected ⟨hstage, rfl, rfl, countClassOf_zero h0⟩,
    byteDone_abortHeader .zero⟩

/-- Settles O25: the ceiling test is the second of R72, and the fault is a header's. -/
theorem overCeilingHeaderAborts : Obligations.OverCeilingHeaderAborts :=
  ⟨fun _ _ hstage h0 hceil =>
      decode_of_rowSelected ⟨hstage, rfl, rfl, countClassOf_ceil h0 hceil⟩,
    byteDone_abortHeader .ceiling⟩

/-- Settles O26: the sink is configured where it takes the count (R37), and refuses it elsewhere. -/
theorem newCountReconfigures : Obligations.NewCountReconfigures := by
  refine ⟨?select, ?effect, ?refused⟩
  case select =>
    intro s raw hstage hpos hceil hnew
    have h0 : completed s (chOf s.cfg raw) ≠ 0 := by
      intro h0
      rw [h0] at hpos
      exact absurd hpos (by decide)
    exact decode_of_rowSelected ⟨hstage, rfl, rfl, countClassOf_new h0 hceil hnew⟩
  case effect =>
    intro ch s hcap
    have hsink : ∀ t, sinkConfigure (completed s ch).toNat t =
        .next (t.sinkSetCount (completed s ch).toNat) := fun t => if_pos hcap
    exact congrArg (andThen · fun t => byteDone t.enterData) (hsink _)
  case refused =>
    intro ch s hcap
    have hsink : ∀ t, sinkConfigure (completed s ch).toNat t = .refused .sinkCount :=
      fun t => if_neg (Nat.not_le.2 hcap)
    exact congrArg (andThen · fun t => byteDone t.enterData) (hsink _)

/-- Settles O27: a store, the completed count, the entry to `Data` and the timer touch. -/
theorem sameCountKeepsTheSink : Obligations.SameCountKeepsTheSink :=
  ⟨fun _ _ hstage h0 hceil hsame =>
      decode_of_rowSelected ⟨hstage, rfl, rfl, countClassOf_same h0 hceil hsame⟩,
    fun _ _ => rfl⟩

/-- Settles O28: the byte is staged where the sink has the channel, read back by
`Memory.read_write`; elsewhere the sink refuses it. -/
theorem dataWriteStoresOneChannel : Obligations.DataWriteStoresOneChannel := by
  refine ⟨?select, ?effect, ?refused⟩
  case select =>
    exact fun s raw hstage hlt =>
      decode_of_rowSelected ⟨hstage, rfl, rfl, full_eq_false_iff.2 hlt⟩
  case effect =>
    intro ch s hlt
    have hstore : memWrite s.writeIndex.toNat ch (s.storeByte ch) =
        .next ((s.storeByte ch).sinkStage s.writeIndex.toNat ch) := if_pos hlt
    have hread := Memory.read_write s.sink.channels s.writeIndex.toNat (v := ch)
    refine ⟨(((s.storeByte ch).sinkStage s.writeIndex.toNat ch).stepIndex.goto .data).touch,
      ?_, rfl, rfl, (hread _).trans (if_pos rfl), fun a ha => (hread a).trans (if_neg ha)⟩
    rw [exec, execDataWrite, hstore, andThen_next, byteDone]
  case refused =>
    intro ch s hle
    have hstore : memWrite s.writeIndex.toNat ch (s.storeByte ch) = .refused .sinkIndex :=
      if_neg (Nat.not_lt.2 hle)
    rw [exec, execDataWrite, hstore, andThen_refused]

/-- Settles O29: `Finish` is entered and left in the same step, by R79 or by R80. -/
theorem fullDataTakesTheFinishByte : Obligations.FullDataTakesTheFinishByte := by
  refine ⟨?select, ?accepted, ?mismatch⟩
  case select =>
    exact fun s raw hstage heq => decode_of_rowSelected ⟨hstage, rfl, rfl, full_of_eq heq⟩
  case accepted => exact fun ch s hch => if_pos hch
  case mismatch =>
    intro ch s hch
    have hrule : exec (.dataFull ch) s = mismatched ((s.storeByte ch).goto .finish) := if_neg hch
    rw [hrule, mismatched, goto_raise_goto]
    exact byteDone_raise_goto .mismatch (s.storeByte ch) .start

/-- Settles O30: the event and the indicator, `Start`, and the timer touch. -/
theorem finishMatchAccepts : Obligations.FinishMatchAccepts :=
  ⟨fun _ _ _ hstage hch => decode_of_rowSelected ⟨hstage, rfl, hch⟩, fun _ => rfl⟩

/-- Settles O31: each of the six rows always goes on, to a state whose sink, active count, timers
and configuration are those before. -/
theorem nonStoringRowsKeepEveryChannel : Obligations.NonStoringRowsKeepEveryChannel := by
  intro i s t ch raw hi h
  rcases hi with rfl | rfl | rfl | rfl | rfl | rfl <;> cases h <;>
    exact ⟨fun _ => rfl, rfl, rfl, rfl, rfl⟩

/-! ## The idle test -/

/-- The comparator as a comparison of numbers: `e < 2^(w-1)` for `e = c - (sched + extra)` (R90). -/
theorem dueBy_iff_toNat_lt {w : Nat} (c sched extra : BitVec w) :
    dueBy c sched extra = true ↔ (c - (sched + extra)).toNat < 2 ^ (w - 1) := by
  rw [dueBy, decide_eq_true_iff]
  generalize c - (sched + extra) = e
  cases w with
  | zero => simp [BitVec.eq_nil e]
  | succ n =>
    rw [BitVec.toInt_eq_toNat_cond]
    have hlt := e.isLt
    rw [Nat.add_sub_cancel]
    split <;> omega

/-- Subtraction of a number from a word, as integers modulo `2^w`. -/
theorem toNat_sub_ofNat {w : Nat} (x : BitVec w) (n : Nat) :
    ((x - BitVec.ofNat w n).toNat : Int) = ((x.toNat : Int) - (n : Int)) % 2 ^ w := by
  have hle : n % 2 ^ w ≤ 2 ^ w := (Nat.mod_lt n (Nat.two_pow_pos w)).le
  rw [BitVec.toNat_sub, BitVec.toNat_ofNat]
  push_cast [Nat.cast_sub hle]
  rw [sub_add_eq_add_sub, add_sub_assoc, Int.add_emod_left, Int.sub_emod_emod]

/-- Settles O20: the idle timer's difference is the gap less the timeout. -/
theorem resyncTestIsTheGapFormula : Obligations.ResyncTestIsTheGapFormula := by
  intro s
  rw [State.idleDue, AlarmTimer.dueBy, dueBy_iff_toNat_lt, ← sub_sub, timerOperand,
    ← toNat_sub_ofNat]
  norm_cast

/-! ## A byte step -/

/-- Settles O50: the rows run the step in one piece (`exec_decodeCode_eq_processByte`). -/
theorem byteStepIsOnePiece : Obligations.ByteStepIsOnePiece :=
  exec_decodeCode_eq_processByte

/-- Whatever a byte step does to the sink, its events are a list of R84. -/
theorem SinkEffect.stepEvents {s t : State} (he : SinkEffect s t) (hout : s.out = []) :
    StepEvents s.cfg t.out := by
  unfold StepEvents
  rcases he with ⟨-, -, -, h | h | ⟨tag, hook, h⟩⟩ | ⟨-, -, -, tag, hook, h⟩ |
    ⟨d, hd, hcap, -, -, -, h⟩ | ⟨v, -, -, -, -, h⟩ <;> rw [h, hout]
  · exact .inl rfl
  · exact .inr (.inr (.inr (.inl rfl)))
  · exact .inr (.inr (.inr (.inr (.inr ⟨tag, hook, rfl⟩))))
  · exact .inr (.inr (.inr (.inr (.inl ⟨tag, hook, rfl⟩))))
  · have hpos : 1 ≤ d.toNat := Nat.one_le_iff_ne_zero.2 fun h0 => hd (BitVec.eq_of_toNat_eq h0)
    exact .inr (.inr (.inl ⟨d.toNat, hpos, hcap, rfl⟩))
  · exact .inr (.inl ⟨s.writeIndex.toNat, v, rfl⟩)

/-- Settles O53: the step is the byte step, and its events are those of its effect on the sink. -/
theorem eventsOfAByteStep : Obligations.EventsOfAByteStep := by
  intro s t raw now rest hin h
  rw [step_byteInput hin] at h
  exact (processByte_sinkEffect h).stepEvents rfl

/-- The state register after a header's fault: `Start` by the default hook's reset, `Data` with the
notify-only hook (R73, R74). -/
theorem abortHeader_raise_state (tag : FaultTag) (s : State) :
    (s.raise tag).abortHeader.state = if s.cfg.errHook = .notifyOnly then .data else .start := by
  cases hook : s.cfg.errHook with
  | default =>
    rw [abortHeader_default _ (by simpa using hook), raise_default hook]
    simp
  | notifyOnly =>
    rw [abortHeader_notifyOnly _ (by simpa using hook)]
    simp

/-- The state register after a header: `Data` for a count in range, and as after the fault for any
other (R73 to R76). -/
theorem processHigh_state {d : BitVec 16} {s t : State} (h : processHigh d s = .next t) :
    t.state = if (1 ≤ d.toNat ∧ d.toNat ≤ s.cfg.maxCeiling) ∨ s.cfg.errHook = .notifyOnly
      then .data else .start := by
  have hrange : (d = 0 ∨ s.cfg.maxCeiling < d.toNat) ↔
      ¬ (1 ≤ d.toNat ∧ d.toNat ≤ s.cfg.maxCeiling) := by
    have hzero : d = 0 ↔ d.toNat = 0 := by bv_omega
    rw [hzero]
    omega
  unfold processHigh at h
  split at h
  case isTrue hbad =>
    cases h
    simp [abortHeader_raise_state, hrange.1 hbad]
  case isFalse hgood =>
    have hin := not_not.1 (mt hrange.2 hgood)
    rw [if_pos (.inl hin)]
    split at h
    · obtain ⟨u, -, hdone⟩ := andThen_eq_next.1 h
      cases hdone
      rfl
    · cases h
      rfl

/-- R82's table at stage 3: R83's case of the state leaves the value the table gives. -/
theorem processCase_state {raw : Byte} {s t : State} (hb : ¬ raw < s.cfg.charBase)
    (hr : ¬ resyncs raw s)
    (h : processCase (chOf s.cfg raw) (s.storeByte (chOf s.cfg raw)) = .next t) :
    t.state = stateAfter s raw := by
  unfold resyncs at hr
  rw [stateAfter, if_neg hb, if_neg hr]
  cases hst : s.state with simp only [processCase, storeByte_state, hst] at h ⊢
  | start | command =>
    split at h
    case isTrue hch => cases h; exact (if_pos hch).symm
    case isFalse hch => cases h; exact (if_neg hch).symm
  | lowChannel => cases h; rfl
  | highChannel => exact (processHigh_state h :)
  | data =>
    split at h
    case isTrue hlt =>
      obtain ⟨u, hu, hdone⟩ := andThen_eq_next.1 h
      obtain ⟨-, rfl⟩ := memWrite_eq_next.1 hu
      cases hdone
      exact hst.trans (if_pos hlt).symm
    case isFalse hfull => exact (processFinish_state h).trans (if_neg hfull).symm
  | finish => exact processFinish_state h

theorem processByte_state {raw : Byte} {s t : State} (h : processByte raw s = .next t) :
    t.state = stateAfter s raw := by
  rcases processByte_cases h with ⟨hb, rfl⟩ | ⟨hb, hr, rfl⟩ | ⟨hb, hr, u, hu, rfl⟩
  · exact (if_pos hb).symm
  · exact ((if_neg hb).trans (if_pos hr)).symm
  · exact (processCase_state hb hr hu :)

/-- Settles O55: the step is the byte step in the state in which the code is accepted. -/
theorem stateAfterAByteStep : Obligations.StateAfterAByteStep := by
  intro s t raw now rest hin h
  rw [step_byteInput hin] at h
  exact processByte_state h

end Sys2Proof.Machine

/-! The comparator, the coarse sample and the unit helpers' rounding (spec/41_alarm_timer.md R88, R90,
R103, R122), for every width. -/

namespace Sys2Proof.Machine

/-! ## The comparator -/

/-- Settles O32: the first reading is the definition's, the third `dueBy_iff_toNat_lt`, and the top bit
is the third's comparison. -/
theorem comparatorIsTheTopBit : Obligations.ComparatorIsTheTopBit := by
  intro w c sched extra
  refine ⟨decide_eq_true_iff, ?topBit, dueBy_iff_toNat_lt c sched extra⟩
  case topBit => rw [dueBy_iff_toNat_lt, BitVec.msb_eq_decide, decide_eq_false_iff_not, not_le]

/-- Settles O33: the difference is the number `k`, which the window keeps from wrapping. -/
theorem dueMeansReachedInsideTheWindow : Obligations.DueMeansReachedInsideTheWindow := by
  intro w sched extra k hw hlow hhigh
  have hdiff : (sched + extra + BitVec.ofInt w k - (sched + extra)).toInt = k := by
    rw [add_sub_cancel_left, BitVec.toInt_ofInt_eq_self hw hlow hhigh]
  rw [dueBy, hdiff, decide_eq_true_iff]

/-- A part of the target may stand in the schedule or in the operand. -/
theorem dueBy_add_zero {w : Nat} (c sched extra : BitVec w) :
    dueBy c (sched + extra) (BitVec.ofNat w 0) = dueBy c sched extra := by
  rw [dueBy, dueBy, BitVec.add_zero]

/-- With `e` coarse ticks gone by since the schedule, and fewer than `n + 2^(w-1)` of them, a timer is
due by `n` exactly when `n` have (R103). -/
theorem dueBy_ofNat_of_lt {w n : Nat} {c sched : BitVec w} (hw : 0 < w) (hn : n ≤ 2 ^ (w - 1))
    (he : (c - sched).toNat < n + 2 ^ (w - 1)) :
    dueBy c sched (BitVec.ofNat w n) = decide (n ≤ (c - sched).toNat) := by
  rw [Bool.eq_iff_iff, dueBy_iff_toNat_lt, ← sub_sub, decide_eq_true_iff]
  have hdiff := toNat_sub_ofNat (c - sched) n
  generalize c - sched = e at he hdiff ⊢
  have hpow : 2 ^ w = 2 * 2 ^ (w - 1) := (Nat.two_pow_pred_mul_two hw).symm.trans (Nat.mul_comm ..)
  have hlt : e.toNat < 2 ^ w := e.isLt
  have hpow' : (2 ^ w : Int) = 2 * (2 ^ (w - 1) : Nat) := by exact_mod_cast hpow
  rw [hpow'] at hdiff
  by_cases hle : n ≤ e.toNat
  · rw [Int.emod_eq_of_lt (by omega) (by omega)] at hdiff
    omega
  · rw [← Int.add_emod_right, Int.emod_eq_of_lt (by omega) (by omega)] at hdiff
    omega

/-! ## The coarse sample -/

theorem coarsen_toNat (tw now : Nat) (p : TimerParams) :
    (coarsen tw p now).toNat = (now % 2 ^ tw) / 2 ^ p.s % 2 ^ p.w := by
  rw [coarsen, BitVec.toNat_setWidth, BitVec.toNat_ushiftRight, BitVec.toNat_ofNat,
    Nat.shiftRight_eq_div_pow]

/-- Where the source holds the timer's bits, its own width drops out of the coarse sample. -/
theorem coarsen_eq_ofNat {tw : Nat} {p : TimerParams} (h : p.w + p.s ≤ tw) (now : Nat) :
    coarsen tw p now = BitVec.ofNat p.w (now / 2 ^ p.s) := by
  have hsplit : 2 ^ tw = 2 ^ p.s * 2 ^ (tw - p.s) := by
    rw [← pow_add, Nat.add_sub_cancel' (by omega)]
  apply BitVec.eq_of_toNat_eq
  rw [coarsen_toNat, hsplit, Nat.mod_mul_right_div_self, BitVec.toNat_ofNat,
    Nat.mod_mod_of_dvd _ (pow_dvd_pow 2 (by omega))]

/-- Settles O34: as a number by `coarsen_toNat`; and `2^S` source ticks are one more in the quotient
that `coarsen_eq_ofNat` gives. -/
theorem coarsenKeepsCounting : Obligations.CoarsenKeepsCounting := by
  refine fun tw now p => ⟨coarsen_toNat tw now p, fun h => ?_⟩
  rw [coarsen_eq_ofNat h, coarsen_eq_ofNat h, Nat.add_div_right now (Nat.two_pow_pos p.s)]
  exact BitVec.ofNat_add _ 1

/-! ## Rounding up -/

/-- `up` is the rounded-up quotient, so it bounds from below exactly the counts that suffice. -/
theorem up_le_iff {s x n : Nat} : up s x ≤ n ↔ x ≤ n * 2 ^ s := by
  have hup : up s x = x ⌈/⌉ 2 ^ s := by
    rw [up, Nat.shiftRight_eq_div_pow, Nat.ceilDiv_eq_add_pred_div]
  rw [hup, ceilDiv_le_iff_le_mul (Nat.two_pow_pos s), Nat.mul_comm]

/-- Settles O44: both halves are `up_le_iff`, at `up(x)` itself and at any other count. -/
theorem roundUpIsNeverUnder : Obligations.RoundUpIsNeverUnder :=
  fun _ _ => ⟨up_le_iff.1 le_rfl, fun _ => up_le_iff.2⟩

end Sys2Proof.Machine

/-! The operations of a stand-alone Alarm Timer (spec/41_alarm_timer.md R91 to R95, R105): the whole
next state of each; what they promise together, after a set, after a reset and over any number of
repeats; and the unit helpers' operands (R98 to R102, R122). -/

namespace Sys2Proof.Machine

open Claims

/-! ## One operation -/

section
variable {k : Nat} {s : State} {t : AlarmTimer}

theorem exec_tSet (ht : s.timers[k]? = some t) (duration : Nat) :
    exec (.tSet k duration) s = .next (s.timerDone k (t.set s.cfg.tw s.now duration) false) :=
  withTimer_some ht _

theorem exec_tReset (ht : s.timers[k]? = some t) :
    exec (.tReset k) s = .next (s.timerDone k (t.rebase s.cfg.tw s.now) false) :=
  withTimer_some ht _

theorem exec_tDueBy (ht : s.timers[k]? = some t) (extra : Nat) :
    exec (.tDueBy k extra) s =
      .next { s with out := s.out ++ [.due k (t.dueBy s.cfg.tw s.now extra)] } := by
  rw [exec, execTDueBy, withTimer_some ht, timerDone_self ht]

theorem exec_tWait (ht : s.timers[k]? = some t) (duration : Nat) :
    exec (.tWait k duration) s = if t.dueBy s.cfg.tw s.now duration = true
      then .next (s.timerDone k (t.rebase s.cfg.tw s.now) true)
      else .next { s with out := s.out ++ [.due k false] } := by
  rw [exec, execTWait, withTimer_some ht, timerDone_self ht]

theorem exec_tRepeat (ht : s.timers[k]? = some t) (duration : Nat) :
    exec (.tRepeat k duration) s = if t.dueBy s.cfg.tw s.now duration = true
      then .next (s.timerDone k (t.advance duration) true)
      else .next { s with out := s.out ++ [.due k false] } := by
  rw [exec, execTRepeat, withTimer_some ht, timerDone_self ht]

end

/-- Settles O36: `exec_tSet` and `exec_tReset`. -/
theorem setAndResetWriteTheSchedule : Obligations.SetAndResetWriteTheSchedule :=
  ⟨fun _ _ => ⟨rfl, rfl⟩, fun _ duration _ _ ht => ⟨exec_tSet ht duration, exec_tReset ht⟩⟩

/-- Settles O37: `exec_tDueBy`. -/
theorem dueByOnlyCompares : Obligations.DueByOnlyCompares :=
  ⟨fun _ _ => rfl, fun _ extra _ _ ht => exec_tDueBy ht extra⟩

/-- Settles O38: the two branches of `exec_tWait`. -/
theorem waitRebasesWhenDue : Obligations.WaitRebasesWhenDue := by
  refine ⟨fun k tArg => rfl, fun k duration s t ht => ⟨fun hdue => ?_, fun hdue => ?_⟩⟩
  · exact (exec_tWait ht duration).trans (if_pos hdue)
  · exact (exec_tWait ht duration).trans (if_neg (Bool.eq_false_iff.1 hdue))

/-- Settles O39: the two branches of `exec_tRepeat`. -/
theorem repeatAdvancesWhenDue : Obligations.RepeatAdvancesWhenDue := by
  refine ⟨fun k tArg => rfl, fun k duration s t ht => ⟨fun hdue => ?_, fun hdue => ?_⟩⟩
  · exact (exec_tRepeat ht duration).trans (if_pos hdue)
  · exact (exec_tRepeat ht duration).trans (if_neg (Bool.eq_false_iff.1 hdue))

/-- What a timer operation writes is what its timer then is. -/
theorem timerDone_getElem? {k : Nat} {s : State} {t : AlarmTimer} (ht : s.timers[k]? = some t)
    (t' : AlarmTimer) (due : Bool) : (s.timerDone k t' due).timers[k]? = some t' := by
  rw [timerDone_timers, List.getElem?_set_self']
  simp [ht]

/-! ## After a set and after a reset -/

theorem horizon_le (w : Nat) : horizon w ≤ 2 ^ (w - 1) := Nat.sub_le ..

/-- After `set(d)` the alarm counts from the sample of the set (R91, R103). -/
theorem set_dueBy {t : AlarmTimer} {tw now later d : Nat} (hw : 0 < t.params.w)
    (hd : d ≤ horizon t.params.w)
    (he : (coarsen tw t.params later - coarsen tw t.params now).toNat < d + 2 ^ (t.params.w - 1)) :
    (t.set tw now d).dueBy tw later 0 =
      decide (d ≤ (coarsen tw t.params later - coarsen tw t.params now).toNat) :=
  (dueBy_add_zero _ _ _).trans (dueBy_ofNat_of_lt hw (hd.trans (horizon_le _)) he)

/-- Settles O40: the set writes the timer (`exec_tSet`), whose answer at the later sample is
`set_dueBy`. -/
theorem setIsDueAfterItsDuration : Obligations.SetIsDueAfterItsDuration := by
  intro k d later s s' t ht hw hd hset he
  cases (exec_tSet ht d).symm.trans hset
  rw [exec_tDueBy (s := { s.timerDone k (t.set s.cfg.tw s.now d) false with now := later })
    (timerDone_getElem? ht (t.set s.cfg.tw s.now d) false), ← set_dueBy hw hd he]
  rfl

/-- Right after `reset()` no coarse tick has gone by (R92). -/
theorem rebase_dueBy_self {t : AlarmTimer} {tw now n : Nat} (hw : 0 < t.params.w)
    (hn : n ≤ 2 ^ (t.params.w - 1)) : (t.rebase tw now).dueBy tw now n = decide (n ≤ 0) := by
  have hzero : (coarsen tw t.params now - coarsen tw t.params now).toNat = 0 := by
    rw [sub_self]
    rfl
  have helapsed : (coarsen tw t.params now - coarsen tw t.params now).toNat <
      n + 2 ^ (t.params.w - 1) := by
    rw [hzero]
    exact Nat.add_pos_right n (Nat.two_pow_pos _)
  have hdue := dueBy_ofNat_of_lt hw hn helapsed
  rwa [hzero] at hdue

/-- Settles O41: `rebase_dueBy_self`, at 0 and above it. -/
theorem resetTimerIsDueByNothingMore : Obligations.ResetTimerIsDueByNothingMore := by
  refine fun t tw now x hw => ⟨rebase_dueBy_self hw (Nat.zero_le _), fun hx hle => ?_⟩
  rw [rebase_dueBy_self hw hle, decide_eq_false_iff_not]
  omega

/-! ## Any number of repeats -/

theorem advance_zero (t : AlarmTimer) : t.advance 0 = t := by
  rw [AlarmTimer.advance, AlarmTimer.schedule, timerOperand, BitVec.add_zero]

/-- One advance after another is one advance by the sum, modulo `2^W`. -/
theorem advance_advance (t : AlarmTimer) (d e : Nat) :
    (t.advance d).advance e = t.advance (d + e) := by
  have hsum : t.scheduledTime + timerOperand t.params d + timerOperand t.params e =
      t.scheduledTime + timerOperand t.params (d + e) := by
    rw [BitVec.add_assoc, timerOperand, timerOperand, timerOperand, BitVec.ofNat_add]
  exact congrArg t.schedule hsum

theorem toNat_advance_scheduledTime (t : AlarmTimer) (d : Nat) :
    (t.advance d).scheduledTime.toNat = (t.scheduledTime.toNat + d) % 2 ^ t.params.w := by
  have hsum : (t.scheduledTime + BitVec.ofNat t.params.w d).toNat =
      (t.scheduledTime.toNat + d) % 2 ^ t.params.w := by
    rw [BitVec.toNat_add, BitVec.toNat_ofNat, Nat.add_mod_mod]
  exact hsum

/-- What one call leaves of its timer, and the answer it puts out (R95). -/
theorem tRepeat_eq_next {k d : Nat} {s u : State} {t : AlarmTimer} (ht : s.timers[k]? = some t)
    (h : exec (.tRepeat k d) s = .next u) :
    (u.timers[k]? = some (t.advance d) ∧ u.out = s.out ++ [.due k true]) ∨
    (u.timers[k]? = some t ∧ u.out = s.out ++ [.due k false]) := by
  rw [exec_tRepeat ht] at h
  split at h <;> cases h
  · exact .inl ⟨timerDone_getElem? ht _ _, rfl⟩
  · exact .inr ⟨ht, rfl⟩

/-- However late the calls, the schedule has gone on by the duration once for each answer true: the
answers are counted by the events. -/
theorem repeatAt_eq_next {k d : Nat} {samples : List Nat} {s s' : State} {t : AlarmTimer}
    (ht : s.timers[k]? = some t) (h : repeatAt k d samples s = .next s') :
    ∃ n, s'.timers[k]? = some (t.advance (n * d)) ∧
      s'.out.count (.due k true) = s.out.count (.due k true) + n := by
  induction samples generalizing s t with
  | nil =>
    cases h
    exact ⟨0, by rw [Nat.zero_mul, advance_zero, ht], rfl⟩
  | cons now rest ih =>
    obtain ⟨u, hu, hrest⟩ := andThen_eq_next.1 h
    rcases tRepeat_eq_next (s := s.sampled now) ht hu with ⟨hadvanced, hout⟩ | ⟨hkept, hout⟩
    · obtain ⟨n, htimer, hcount⟩ := ih hadvanced hrest
      refine ⟨n + 1, ?_, ?_⟩
      · rw [htimer, advance_advance, Nat.add_comm, ← Nat.succ_mul]
      · rw [hcount, hout, List.count_append, List.count_singleton_self]
        exact Nat.add_right_comm _ 1 n
    · obtain ⟨n, htimer, hcount⟩ := ih hkept hrest
      refine ⟨n, htimer, ?_⟩
      rw [hcount, hout, List.count_append]
      simp [State.sampled]

/-- Settles O42: the calls together are one advance by `n * D` (`repeatAt_eq_next`), which as a number
is the sum modulo `2^W`. -/
theorem repeatNeverDrifts : Obligations.RepeatNeverDrifts := by
  intro k d samples s s' t ht h
  obtain ⟨n, htimer, hcount⟩ := repeatAt_eq_next ht h
  exact ⟨t.advance (n * d), n, htimer, rfl, hcount, toNat_advance_scheduledTime t (n * d)⟩

/-! ## The unit helpers -/

section
variable {sel : TimerSel} {s : State} {p : TimerParams}

/-- A result at most the horizon is put out, and nothing else changes. -/
theorem helper_of_le_horizon {factor t : Nat} (hp : s.paramsOf sel = some p)
    (h : up p.s (t * factor * s.cfg.ticksPerMs) ≤ horizon p.w) :
    helper factor sel t s =
      .next { s with out := s.out ++ [.operand (up p.s (t * factor * s.cfg.ticksPerMs))] } :=
  helper_eq_next.2 ⟨p, hp, h, rfl⟩

/-- A result above the horizon is refused (U14). -/
theorem helper_of_horizon_lt {factor t : Nat} (hp : s.paramsOf sel = some p)
    (h : horizon p.w < up p.s (t * factor * s.cfg.ticksPerMs)) :
    helper factor sel t s = .refused .aboveHorizon := by
  simp only [helper, hp, if_neg (not_le.2 h)]

end

/-- Settles O45: each helper is `helper` at its factor, which is 1 for milliseconds. -/
theorem helpersPutTheOperandOut : Obligations.HelpersPutTheOperandOut := by
  intro sel t s p hp
  have hms := helper_of_le_horizon (factor := 1) (t := t) hp
  rw [Nat.mul_one] at hms
  exact ⟨hms, helper_of_le_horizon hp, helper_of_le_horizon hp, helper_of_le_horizon hp,
    helper_of_le_horizon hp⟩

/-- Settles O46: each helper is `helper` at its factor, which is 1 for milliseconds. -/
theorem helpersRefuseAboveTheHorizon : Obligations.HelpersRefuseAboveTheHorizon := by
  intro sel t s p hp
  have hms := helper_of_horizon_lt (factor := 1) (t := t) hp
  rw [Nat.mul_one] at hms
  exact ⟨hms, helper_of_horizon_lt hp, helper_of_horizon_lt hp, helper_of_horizon_lt hp,
    helper_of_horizon_lt hp⟩

end Sys2Proof.Machine

/-! Stand-alone timers and the decoder share nothing (R1, R86). A decoder input runs the byte step, a
reset or nothing, and none of these touches the list of stand-alone timers: on another list it ends
alike, the list handed over. An operation at a timer's port goes by the configuration, the sample and
that timer. -/

namespace Sys2Proof.Machine

open Claims

/-! ## Parts of a step that are blind to the stand-alone timers -/

/-- The state with other stand-alone timers. -/
def State.withTimers (ts : List AlarmTimer) (s : State) : State :=
  { s with timers := ts }

/-- A part of a step neither reads nor writes the stand-alone timers: with others it ends alike, and
those are handed over. -/
def TimerBlind (f : State → Result) : Prop :=
  ∀ (s : State) (ts : List AlarmTimer),
    f (s.withTimers ts) = andThen (f s) fun t => .next (t.withTimers ts)

/-- A blind part after another is blind. -/
theorem TimerBlind.andThen {f g : State → Result} (hf : TimerBlind f) (hg : TimerBlind g) :
    TimerBlind fun s => andThen (f s) g := by
  intro s ts
  simp only [hf s ts, andThen_assoc]
  exact andThen_congr fun t _ => hg t ts

/-- What is done in each branch is done after both. -/
theorem ite_eq_andThen {c : Prop} [Decidable c] {r r' q q' : Result} {f : State → Result}
    (h : r = andThen q f) (h' : r' = andThen q' f) :
    (if c then r else r') = andThen (if c then q else q') f := by
  by_cases hc : c
  · simpa only [if_pos hc] using h
  · simpa only [if_neg hc] using h'

theorem next_timerBlind {F : State → State}
    (h : ∀ (s : State) (ts : List AlarmTimer), F (s.withTimers ts) = (F s).withTimers ts) :
    TimerBlind fun s => .next (F s) :=
  fun s ts => congrArg Host.Outcome.next (h s ts)

theorem raise_withTimers (tag : FaultTag) (s : State) (ts : List AlarmTimer) :
    (s.withTimers ts).raise tag = (s.raise tag).withTimers ts := by
  cases hook : s.cfg.errHook with
  | default => rw [raise_default hook, raise_default (s := s.withTimers ts) hook]; rfl
  | notifyOnly => rw [raise_notifyOnly hook, raise_notifyOnly (s := s.withTimers ts) hook]; rfl

theorem abortHeader_withTimers (s : State) (ts : List AlarmTimer) :
    (s.withTimers ts).abortHeader = s.abortHeader.withTimers ts := by
  cases hook : s.cfg.errHook with
  | default => rw [abortHeader_default s hook, abortHeader_default (s.withTimers ts) hook]
  | notifyOnly =>
    rw [abortHeader_notifyOnly s hook, abortHeader_notifyOnly (s.withTimers ts) hook]; rfl

theorem sinkConfigure_timerBlind (n : Nat) : TimerBlind (sinkConfigure n) :=
  fun _ _ => ite_eq_andThen rfl rfl

theorem memWrite_timerBlind (i : Nat) (v : Byte) : TimerBlind (memWrite i v) :=
  fun _ _ => ite_eq_andThen rfl rfl

theorem hardwareReset_timerBlind : TimerBlind hardwareReset :=
  fun _ _ => ite_eq_andThen rfl rfl

/-! ## The byte step in one piece (R83) -/

theorem mismatched_timerBlind : TimerBlind fun s => .next ((s.raise .mismatch).goto .start) :=
  next_timerBlind fun s ts => congrArg (State.goto .start) (raise_withTimers .mismatch s ts)

theorem processFinish_timerBlind (ch : Byte) : TimerBlind (processFinish ch) :=
  fun s ts => ite_eq_andThen rfl (mismatched_timerBlind s ts)

theorem processHigh_timerBlind (d : BitVec 16) : TimerBlind (processHigh d) := by
  intro s ts
  refine ite_eq_andThen ?fault (ite_eq_andThen ?new rfl)
  case fault =>
    rw [raise_withTimers, abortHeader_withTimers]
    rfl
  case new =>
    exact (sinkConfigure_timerBlind d.toNat).andThen (next_timerBlind fun _ _ => rfl)
      (s.activate d) ts

/-- The case of the state, and the branch in it (R83), the registers alone say. -/
theorem processCase_timerBlind (ch : Byte) : TimerBlind (processCase ch) := by
  intro s ts
  have hst' : (s.withTimers ts).state = s.state := rfl
  cases hst : s.state with simp only [processCase, hst', hst]
  | start | command => exact ite_eq_andThen rfl (mismatched_timerBlind s ts)
  | lowChannel => rfl
  | highChannel => exact processHigh_timerBlind _ (s.completeCount ch) ts
  | data =>
    exact ite_eq_andThen
      ((memWrite_timerBlind _ ch).andThen (next_timerBlind fun _ _ => rfl) s ts)
      (processFinish_timerBlind ch (s.goto .finish) ts)
  | finish => exact processFinish_timerBlind ch s ts

/-- Which of the three stages a code takes (R52), the registers and the decoder's own timer say. -/
theorem processByte_timerBlind (raw : Byte) : TimerBlind (processByte raw) := by
  intro s ts
  by_cases hb : raw < s.cfg.charBase
  · rw [processByte_ignored hb, processByte_ignored (s := s.withTimers ts) hb, andThen_next]
  by_cases hr : resyncs raw s
  · rw [processByte_resync hb hr, processByte_resync (s := s.withTimers ts) hb hr]
    have hraise := raise_withTimers .resync (s.storeByte s.cfg.startDelim) ts
    exact congrArg (fun u : State => Host.Outcome.next ((u.goto .start).goto .command).touch) hraise
  · rw [processByte_stage3 hb hr, processByte_stage3 (s := s.withTimers ts) hb hr]
    exact (processCase_timerBlind _).andThen (next_timerBlind fun _ _ => rfl)
      (s.storeByte (chOf s.cfg raw)) ts

theorem processCodes_timerBlind : ∀ codes : List Byte, TimerBlind (processCodes codes)
  | [] => fun _ _ => rfl
  | raw :: rest => (processByte_timerBlind raw).andThen (processCodes_timerBlind rest)

/-! ## The step of a decoder input -/

section
variable {s : State} {now : Nat} {rest : List Input}

theorem step_init {v : Bool} {d : Byte} (h : s.inputs = .cycle false true v d now :: rest) :
    step s = .next (s.take rest now).fullReset :=
  step_of_fetch_word (fetch_init h) rfl

theorem step_noByte {d : Byte} (h : s.inputs = .cycle false false false d now :: rest) :
    step s = .next (s.take rest now) := by
  simp [step, fetch, h, fetchCycle]

theorem step_frame {codes data : List Byte} (h : s.inputs = .line codes now :: rest)
    (hd : decodeFrame s.cfg codes = .ok (.wireFrame data)) :
    step s = processCodes (frameCodes s.cfg data) (s.take rest now) :=
  step_of_fetch_word (fetch_frame h hd) hd

theorem step_codes {raw : Byte} {more : List Byte}
    (h : s.inputs = .line (raw :: more) now :: rest)
    (hd : ∀ i, decodeFrame s.cfg (raw :: more) ≠ .ok i) :
    step s = processByte raw (s.take (more.map (byteInput · now) ++ rest) now) := by
  rw [step_of_fetch_word (fetch_codes h hd) rfl, exec_decodeCode_eq_processByte]

/-- A clock edge at the decoder's ports: a reset, a byte step or nothing (R31, R111). -/
theorem step_cycle_withTimers {rst init v : Bool} {d : Byte}
    (h : s.inputs = .cycle rst init v d now :: rest) (ts : List AlarmTimer) :
    step (s.withTimers ts) = andThen (step s) fun t => .next (t.withTimers ts) := by
  cases rst with
  | true =>
    rw [step_rst h, step_rst (s := s.withTimers ts) h]
    exact hardwareReset_timerBlind (s.take rest now) ts
  | false =>
    cases init with
    | true =>
      rw [step_init h, step_init (s := s.withTimers ts) h]
      rfl
    | false =>
      cases v with
      | true =>
        rw [step_byteInput h, step_byteInput (s := s.withTimers ts) h]
        exact processByte_timerBlind d (s.take rest now) ts
      | false =>
        rw [step_noByte h, step_noByte (s := s.withTimers ts) h]
        rfl

/-- A stream line: nothing, a whole frame or its first code (R60). -/
theorem step_line_withTimers {codes : List Byte} (h : s.inputs = .line codes now :: rest)
    (ts : List AlarmTimer) :
    step (s.withTimers ts) = andThen (step s) fun t => .next (t.withTimers ts) := by
  cases codes with
  | nil =>
    rw [step_emptyLine h, step_emptyLine (s := s.withTimers ts) h]
    rfl
  | cons raw more =>
    by_cases hframe : ∃ i, decodeFrame s.cfg (raw :: more) = .ok i
    · obtain ⟨i, hd⟩ := hframe
      obtain ⟨data, rfl⟩ := decodeFrame_wireFrame hd
      rw [step_frame h hd, step_frame (s := s.withTimers ts) h hd]
      exact processCodes_timerBlind (frameCodes s.cfg data) (s.take rest now) ts
    · have hd := not_exists.1 hframe
      rw [step_codes h hd, step_codes (s := s.withTimers ts) h hd]
      exact processByte_timerBlind raw (s.take _ now) ts

/-- The step of a decoder input is blind to the stand-alone timers. -/
theorem step_withTimers {i : Input} (h : s.inputs = i :: rest) (hi : i.forDecoder = true)
    (ts : List AlarmTimer) :
    step (s.withTimers ts) = andThen (step s) fun t => .next (t.withTimers ts) := by
  cases i with
  | cycle => exact step_cycle_withTimers h ts
  | line => exact step_line_withTimers h ts
  | timer | ms | seconds | minutes | hours | days => cases hi

/-- A blind step keeps the timers: it is the step that hands over the ones it has. -/
theorem step_decoder_timers {i : Input} {t : State} (h : s.inputs = i :: rest)
    (hi : i.forDecoder = true) (hstep : step s = .next t) : t.timers = s.timers := by
  have hself : step s = andThen (step s) fun t => .next (t.withTimers s.timers) :=
    step_withTimers h hi s.timers
  rw [hstep, andThen_next, Host.Outcome.next.injEq] at hself
  rw [hself]
  rfl

end

theorem agree_withTimers (r : Result) (ts : List AlarmTimer) :
    Agree SameButTimers r (andThen r fun t => .next (t.withTimers ts)) := by
  cases r with
  | next t => exact rfl
  | fault e => exact rfl
  | refused e => exact rfl

/-! ## The step of a timer input -/

section
variable {s u : State} {k tArg now : Nat} {r : Bool} {tOp : BitVec 3} {rest : List Input}

theorem step_timer (h : s.inputs = .timer k false tOp tArg now :: rest) :
    step s = exec (decodeTimer k tOp tArg) (s.take rest now) :=
  step_of_fetch_word (fetch_timer h) rfl

theorem step_timerReset (h : s.inputs = .timer k true tOp tArg now :: rest) :
    step s = timerReset k (s.take rest now) := by
  simp [step, fetch, h]

/-- All that an input at a timer's port can do: its own timer is written, or that and its bit `due`
put out. -/
theorem step_timer_cases {t : State} (h : s.inputs = .timer k r tOp tArg now :: rest)
    (hstep : step s = .next t) :
    (∃ a, t = (s.take rest now).setTimer k a) ∨
    (∃ a due, t = (s.take rest now).timerDone k a due) := by
  cases r with
  | true =>
    rw [step_timerReset h] at hstep
    obtain ⟨a, -, -, ht⟩ := timerReset_eq_next.1 hstep
    exact .inl ⟨_, ht⟩
  | false =>
    rw [step_timer h] at hstep
    obtain ⟨-, a, due, -, -, ht⟩ := timer_eq_next hstep
    exact .inr ⟨a, due, ht⟩

/-- The decoder, the sink and every other timer are as they were. -/
theorem step_timer_frame {t : State} (h : s.inputs = .timer k r tOp tArg now :: rest)
    (hstep : step s = .next t) :
    SameDecoder s t ∧ ∀ j, j ≠ k → t.timers[j]? = s.timers[j]? := by
  rcases step_timer_cases h hstep with ⟨a, rfl⟩ | ⟨a, due, rfl⟩
  all_goals exact ⟨⟨rfl, rfl, rfl, rfl, rfl, rfl, rfl, rfl, rfl⟩,
    fun j hj => List.getElem?_set_ne hj.symm⟩

/-- Operations on one timer agree where both states hold the same timer and they agree on it. -/
theorem agree_withTimer_of_getElem? {R : State → State → Prop} {f g : AlarmTimer → Result}
    (hk : u.timers[k]? = s.timers[k]?) (h : ∀ t, Agree R (f t) (g t)) :
    Agree R (withTimer k s f) (withTimer k u g) := by
  simp only [withTimer, hk]
  cases s.timers[k]? with
  | none => exact rfl
  | some t => exact h t

/-- What an operation writes and answers goes by the configuration, the sample and its own timer. -/
theorem agree_exec_decodeTimer {R : State → State → Prop} (hcfg : u.cfg = s.cfg)
    (hnow : u.now = s.now) (hk : u.timers[k]? = s.timers[k]?)
    (hdone : ∀ a due, R (s.timerDone k a due) (u.timerDone k a due)) :
    Agree R (exec (decodeTimer k tOp tArg) s) (exec (decodeTimer k tOp tArg) u) := by
  unfold decodeTimer
  split <;> simp only [exec, execTNop, execTSet, execTReset, execTDueBy, execTWait, execTRepeat,
    execTReserved, hcfg, hnow]
  case h_5 | h_6 =>
    exact agree_withTimer_of_getElem? hk fun _ => agree_ite (hdone _ _) (hdone _ _)
  all_goals exact agree_withTimer_of_getElem? hk fun _ => hdone _ _

/-- Two steps of one timer input agree where the configuration and that timer are the same, and the
states left by each write of it are related. -/
theorem agree_step_timer {R : State → State → Prop}
    (hs : s.inputs = .timer k r tOp tArg now :: rest) (hu : u.inputs = .timer k r tOp tArg now :: rest)
    (hcfg : u.cfg = s.cfg) (hk : u.timers[k]? = s.timers[k]?)
    (hset : ∀ a, R ((s.take rest now).setTimer k a) ((u.take rest now).setTimer k a))
    (hdone : ∀ a due,
      R ((s.take rest now).timerDone k a due) ((u.take rest now).timerDone k a due)) :
    Agree R (step s) (step u) := by
  cases r with
  | true =>
    rw [step_timerReset hs, step_timerReset hu]
    simp only [timerReset, take_cfg, hcfg]
    exact agree_withTimer_of_getElem? hk fun _ => agree_ite (hset _) rfl
  | false =>
    rw [step_timer hs, step_timer hu]
    exact agree_exec_decodeTimer hcfg rfl hk hdone

end

/-! ## The isolation -/

/-- The state with the decoder's registers, its timer and the sink of another. -/
def State.withDecoder (s d : State) : State :=
  { s with
    state := d.state, pendingByte := d.pendingByte, declaredChannelCount := d.declaredChannelCount,
    activeChannelCount := d.activeChannelCount, writeIndex := d.writeIndex,
    okIndicator := d.okIndicator, alarm := d.alarm, sink := d.sink }

/-- A timer input does not read the decoder. -/
theorem agree_step_timer_withDecoder {s : State} {k tArg now : Nat} {r : Bool} {tOp : BitVec 3}
    {rest : List Input} (h : s.inputs = .timer k r tOp tArg now :: rest) (d : State) :
    Agree SameButDecoder (step s) (step (s.withDecoder d)) :=
  agree_step_timer h h rfl rfl (fun _ => rfl) fun _ _ => rfl

/-- A timer input does not read another timer, and writes its own alike. -/
theorem agree_step_timer_withTimers {s : State} {ts : List AlarmTimer} {k tArg now : Nat} {r : Bool}
    {tOp : BitVec 3} {rest : List Input} (h : s.inputs = .timer k r tOp tArg now :: rest)
    (hk : ts[k]? = s.timers[k]?) :
    Agree (fun t u => SameButTimers t u ∧ u.timers[k]? = t.timers[k]?) (step s)
      (step (s.withTimers ts)) := by
  have hset : ∀ a, (ts.set k a)[k]? = (s.timers.set k a)[k]? := fun a => by
    rw [List.getElem?_set_self', List.getElem?_set_self', hk]
  exact agree_step_timer h h rfl hk (fun a => ⟨rfl, hset a⟩) fun a _ => ⟨rfl, hset a⟩

/-- Settles O43: a decoder input's step is blind to the stand-alone timers (`step_withTimers`), so it
neither writes nor reads them; a timer input writes its own timer (`step_timer_frame`) by what that
timer, the configuration and the sample say (`agree_step_timer`). -/
theorem timersAndDecoderAreIsolated : Obligations.TimersAndDecoderAreIsolated := by
  refine ⟨?decoderWrites, ?timerWrites, ?decoderReads, ?timerReadsDecoder, ?timerReadsTimers⟩
  case decoderWrites => exact fun s t i rest h hi => step_decoder_timers h hi
  case timerWrites => exact fun s t k r tOp tArg now rest h => step_timer_frame h
  case decoderReads =>
    intro s ts i rest h hi
    change Agree SameButTimers (step s) (step (s.withTimers ts))
    rw [step_withTimers h hi]
    exact agree_withTimers (step s) ts
  case timerReadsDecoder =>
    intro s u k r tOp tArg now rest h hu
    have hu' : u = s.withDecoder u := hu
    rw [hu']
    exact agree_step_timer_withDecoder h u
  case timerReadsTimers =>
    exact fun s ts k r tOp tArg now rest h hk => agree_step_timer_withTimers h hk

end Sys2Proof.Machine

/-! Exceptions (spec/60_exceptions.md): what taking a frame fault does under each hook (R109, R110),
what ranks above a byte in one cycle (R111, decision D17), and that in a good state no decoder input
and no timer operation stops the machine (R106). -/

namespace Sys2Proof.Machine

open Claims

/-! ## Every step is total -/

section
variable {s : State} {now : Nat} {rest : List Input}

/-- A clock edge at the decoder's ports always leads on: the strobes and the empty cycle by their
own equations, a code by `processByte_total`. -/
theorem step_cycle_total {rst init v : Bool} {d : Byte} (hs : s.Inv) (hok : s.cfg.ok = true)
    (h : s.inputs = .cycle rst init v d now :: rest) : ∃ t, step s = .next t := by
  cases rst with
  | true => exact ⟨_, (step_rst h).trans (hardwareReset_eq_next.2 ⟨hok, rfl⟩)⟩
  | false =>
    cases init with
    | true => exact ⟨_, step_init h⟩
    | false =>
      cases v with
      | true =>
        rw [step_byteInput h]
        exact processByte_total (s := s.take rest now) d hs hok
      | false => exact ⟨_, step_noByte h⟩

/-- A stream line always leads on, as nothing, as a whole frame or by its first code (R60). -/
theorem step_line_total {codes : List Byte} (hs : s.Inv) (hok : s.cfg.ok = true)
    (h : s.inputs = .line codes now :: rest) : ∃ t, step s = .next t := by
  cases codes with
  | nil => exact ⟨_, step_emptyLine h⟩
  | cons raw more =>
    by_cases hframe : ∃ i, decodeFrame s.cfg (raw :: more) = .ok i
    · obtain ⟨i, hd⟩ := hframe
      obtain ⟨data, rfl⟩ := decodeFrame_wireFrame hd
      rw [step_frame h hd]
      exact processCodes_total (s := s.take rest now) _ hs hok
    · rw [step_codes h (not_exists.1 hframe)]
      exact processByte_total (s := s.take _ now) raw hs hok

/-- In a good state a timer of the configuration exists, with parameters that meet R12. -/
theorem State.Inv.exists_timer {k : Nat} (hs : s.Inv) (hok : s.cfg.ok = true)
    (hk : s.cfg.hasTimer k = true) :
    ∃ t, s.timers[k]? = some t ∧ t.params.ok s.cfg.tw = true := by
  simp only [Config.hasTimer, decide_eq_true_eq, ← hs.timers, List.length_map] at hk
  refine ⟨s.timers[k], List.getElem?_eq_getElem hk, ?_⟩
  simp only [Config.ok, Bool.and_eq_true, List.all_eq_true, ← hs.timers] at hok
  obtain ⟨-, hall⟩ := hok
  exact hall _ (List.mem_map_of_mem (List.getElem_mem hk))

/-- Every word on the port of an existing timer has a next state, the reserved codes included. -/
theorem exec_decodeTimer_total {k tArg : Nat} {tOp : BitVec 3} {t : AlarmTimer}
    (ht : s.timers[k]? = some t) : ∃ u, exec (decodeTimer k tOp tArg) s = .next u := by
  unfold decodeTimer
  split
  case h_2 => exact ⟨_, exec_tSet ht tArg⟩
  case h_3 => exact ⟨_, exec_tReset ht⟩
  case h_4 => exact ⟨_, exec_tDueBy ht tArg⟩
  case h_5 => rw [exec_tWait ht]; split <;> exact ⟨_, rfl⟩
  case h_6 => rw [exec_tRepeat ht]; split <;> exact ⟨_, rfl⟩
  case h_1 | h_7 | h_8 => exact ⟨_, withTimer_some ht _⟩

theorem step_timer_total {k tArg : Nat} {r : Bool} {tOp : BitVec 3} (hs : s.Inv)
    (hok : s.cfg.ok = true) (h : s.inputs = .timer k r tOp tArg now :: rest)
    (hk : s.cfg.hasTimer k = true) : ∃ t, step s = .next t := by
  obtain ⟨t, ht, hparams⟩ := hs.exists_timer hok hk
  cases r with
  | true => exact ⟨_, (step_timerReset h).trans (timerReset_eq_next.2 ⟨t, ht, hparams, rfl⟩)⟩
  | false =>
    rw [step_timer h]
    exact exec_decodeTimer_total (s := s.take rest now) ht

end

/-- Settles O49: each kind of input by its own totality (`step_cycle_total`, `step_line_total`,
`step_timer_total`). -/
theorem noFaultStopsTheMachine : Obligations.NoFaultStopsTheMachine := by
  refine ⟨?decoder, fun s k r tOp tArg now rest hs hok h hk => step_timer_total hs hok h hk⟩
  case decoder =>
    intro s i rest hs hok h hi
    cases i with
    | cycle => exact step_cycle_total hs hok h
    | line => exact step_line_total hs hok h
    | timer | ms | seconds | minutes | hours | days => cases hi

/-! ## The notify-only hook -/

/-- The success indicator is as before, or the one event put out is `Accepted` (R113). -/
def IndicatorKept (s t : State) : Prop :=
  t.okIndicator = s.okIndicator ∨ t.out = s.out ++ [.accepted]

section
variable {s t : State}

theorem raise_okIndicator_of_notifyOnly (hook : s.cfg.errHook = .notifyOnly) (tag : FaultTag) :
    (s.raise tag).okIndicator = s.okIndicator := by
  rw [raise_notifyOnly hook, emit_okIndicator]

theorem processFinish_indicatorKept {ch : Byte} (hook : s.cfg.errHook = .notifyOnly)
    (h : processFinish ch s = .next t) : IndicatorKept s t := by
  unfold processFinish at h
  split at h <;> cases h
  · exact .inr rfl
  · exact .inl (raise_okIndicator_of_notifyOnly hook _)

theorem processHigh_indicatorKept {d : BitVec 16} (hook : s.cfg.errHook = .notifyOnly)
    (h : processHigh d s = .next t) : IndicatorKept s t := by
  unfold processHigh at h
  split at h
  · cases h
    exact .inl ((abortHeader_okIndicator _).trans (raise_okIndicator_of_notifyOnly hook _))
  split at h
  · obtain ⟨u, hu, hdone⟩ := andThen_eq_next.1 h
    obtain ⟨-, rfl⟩ := sinkConfigure_eq_next.1 hu
    cases hdone
    exact .inl rfl
  · cases h
    exact .inl rfl

theorem processCase_indicatorKept {ch : Byte} (hook : s.cfg.errHook = .notifyOnly)
    (h : processCase ch s = .next t) : IndicatorKept s t := by
  cases hst : s.state with simp only [processCase, hst] at h
  | start | command =>
    split at h <;> cases h
    · exact .inl rfl
    · exact .inl (raise_okIndicator_of_notifyOnly hook _)
  | lowChannel => cases h; exact .inl rfl
  | highChannel => exact processHigh_indicatorKept (s := s.completeCount ch) hook h
  | data =>
    split at h
    · obtain ⟨u, hu, hdone⟩ := andThen_eq_next.1 h
      obtain ⟨-, rfl⟩ := memWrite_eq_next.1 hu
      cases hdone
      exact .inl rfl
    · exact processFinish_indicatorKept (s := s.goto .finish) hook h
  | finish => exact processFinish_indicatorKept hook h

/-- With the notify-only hook only an accepted frame writes the success indicator. -/
theorem processByte_indicatorKept {raw : Byte} (hook : s.cfg.errHook = .notifyOnly)
    (h : processByte raw s = .next t) : IndicatorKept s t := by
  rcases processByte_cases h with ⟨-, rfl⟩ | ⟨-, -, rfl⟩ | ⟨-, -, u, hu, rfl⟩
  · exact .inl rfl
  · exact .inl (raise_okIndicator_of_notifyOnly (s := s.storeByte (chOf s.cfg raw)) hook .resync)
  · exact (processCase_indicatorKept (s := s.storeByte (chOf s.cfg raw)) hook hu :)

/-- With the notify-only hook a byte step that puts an `Error` out keeps the sink and the active
count, and puts nothing else out: of all it can do to the sink, only `SinkKept` is left. -/
theorem SinkEffect.kept_of_error {tag : FaultTag} (he : SinkEffect s t)
    (hook : s.cfg.errHook = .notifyOnly) (hout : s.out = []) (herr : .error tag ∈ t.out) :
    t.activeChannelCount = s.activeChannelCount ∧ t.sink = s.sink ∧ t.out = [.error tag] := by
  rcases he with ⟨hsink, hact, -, h | h | ⟨tag', -, h⟩⟩ | ⟨-, -, -, tag', hdefault, -⟩ |
    ⟨d, -, -, -, -, -, h⟩ | ⟨v, -, -, -, -, h⟩
  case inl.inr.inr =>
    rw [h, hout] at herr ⊢
    obtain rfl : tag = tag' := by simpa using herr
    exact ⟨hact, hsink, rfl⟩
  case inr.inl =>
    rw [hook] at hdefault
    cases hdefault
  all_goals
    rw [h, hout] at herr
    simp at herr

end

/-- Settles O17: the step's one event is the `Error` (`SinkEffect.kept_of_error`), so it is not
`Accepted`, which alone would have written the indicator. -/
theorem notifyOnlyKeepsTheConfiguration : Obligations.NotifyOnlyKeepsTheConfiguration := by
  intro s t raw now rest tag hook hin h herr
  rw [step_byteInput hin] at h
  obtain ⟨hact, hsink, hout⟩ :=
    (processByte_sinkEffect h).kept_of_error (s := s.take rest now) hook rfl herr
  refine ⟨hact, hsink, hout, ?_⟩
  rcases processByte_indicatorKept (s := s.take rest now) hook h with hok | haccepted
  · exact hok
  · rw [hout] at haccepted
    cases haccepted

/-! ## Idle, the strobes, and the fault itself -/

/-- With an empty queue only the output pulses end (R121, R140). -/
theorem step_of_inputs_nil {s : State} (h : s.inputs = []) : step s = .next s.clearOut := by
  rw [step, fetch, h]

/-- Settles O2: the empty queue, and the cycle in which nothing is offered. -/
theorem noInputIsAnIdleStep : Obligations.NoInputIsAnIdleStep :=
  ⟨fun _ h => step_of_inputs_nil h, fun _ _ _ _ h => step_noByte h⟩

/-- Settles O3: `step_rst` and `step_init`, which do not look at what stands beside the strobe. -/
theorem strobesBeatBytes : Obligations.StrobesBeatBytes :=
  fun _ _ _ _ _ _ => ⟨step_rst, step_init⟩

/-- Settles O15: the fault's one equation (`raise_eq_afterFault`), read under each hook. -/
theorem frameFaultEntry : Obligations.FrameFaultEntry := by
  refine fun tag s => ⟨fun hook => ?_, fun hook => ?_⟩
  all_goals
    rw [raise_eq_afterFault]
    simp only [afterFault, hook]

end Sys2Proof.Machine

/-! Reset and Initialization (spec/70_reset_and_hazards.md): the two resets and the full reset's list
(R127 to R129); and that with the default hook a fault of a byte step is such a full reset, with the
channel configuration cleared on both sides of the sink's boundary (R112, R135). -/

namespace Sys2Proof.Machine

/-! ## The default hook's fault in a byte step -/

/-- The fault `tag` under the default hook (R109): the configuration is cleared, the sink is told so,
and the state register is left at `st`. An update of any other register does not show in it. -/
def Faulted (tag : FaultTag) (st : DecoderState) (s t : State) : Prop :=
  t.activeChannelCount = 0 ∧ t.sink = ⟨0, []⟩ ∧ t.out = s.out ++ [.error tag, .sinkCfg 0] ∧
  t.okIndicator = false ∧ t.state = st

/-- No `Error` event is put out. -/
def NoErrorAdded (s t : State) : Prop :=
  ∀ tag, .error tag ∈ t.out → .error tag ∈ s.out

/-- All that stage 3 of a byte step can do with the default hook: put no `Error` out, or take a fault
other than `'R'` and be back in `Start`. -/
def FaultEffect (s t : State) : Prop :=
  NoErrorAdded s t ∨ ∃ tag, tag ≠ .resync ∧ Faulted tag .start s t

/-- An event that is no `Error` adds none. -/
theorem NoErrorAdded.of_event {s t : State} {e : Event} (h : t.out = s.out ++ [e])
    (he : ∀ tag, e ≠ .error tag) : NoErrorAdded s t := by
  intro tag hmem
  simpa [h, (he tag).symm] using hmem

section
variable {s t : State}

theorem raise_faulted (hook : s.cfg.errHook = .default) (tag : FaultTag) :
    Faulted tag .start s (s.raise tag) := by
  simp [raise_default hook, Faulted]

/-- A later transition replaces the state register alone. -/
theorem Faulted.goto {tag : FaultTag} {st : DecoderState} (h : Faulted tag st s t)
    (st' : DecoderState) : Faulted tag st' s (t.goto st') := by
  obtain ⟨hact, hsink, hout, hok, -⟩ := h
  exact ⟨hact, hsink, hout, hok, rfl⟩

/-- The fault's `Error` is the only one of a step that began with no event. -/
theorem Faulted.tag_eq {tag tag' : FaultTag} {st : DecoderState} (h : Faulted tag' st s t)
    (hout : s.out = []) (herr : .error tag ∈ t.out) : tag = tag' := by
  obtain ⟨-, -, hevents, -⟩ := h
  simpa [hevents, hout] using herr

theorem mismatch_faultEffect (hook : s.cfg.errHook = .default) :
    FaultEffect s ((s.raise .mismatch).goto .start) :=
  .inr ⟨.mismatch, nofun, (raise_faulted hook _).goto .start⟩

theorem processFinish_faultEffect {ch : Byte} (hook : s.cfg.errHook = .default)
    (h : processFinish ch s = .next t) : FaultEffect s t := by
  unfold processFinish at h
  split at h <;> cases h
  · exact .inl (.of_event (e := .accepted) rfl nofun)
  · exact mismatch_faultEffect hook

theorem processHigh_faultEffect {d : BitVec 16} (hook : s.cfg.errHook = .default)
    (h : processHigh d s = .next t) : FaultEffect s t := by
  unfold processHigh at h
  split at h
  · cases h
    rw [abortHeader_default _ (by simpa using hook)]
    exact .inr ⟨_, by split <;> nofun, raise_faulted hook _⟩
  split at h
  · obtain ⟨u, hu, hdone⟩ := andThen_eq_next.1 h
    obtain ⟨-, rfl⟩ := sinkConfigure_eq_next.1 hu
    cases hdone
    exact .inl (.of_event (e := .sinkCfg d.toNat) rfl nofun)
  · cases h
    exact .inl fun _ => id

theorem processCase_faultEffect {ch : Byte} (hook : s.cfg.errHook = .default)
    (h : processCase ch s = .next t) : FaultEffect s t := by
  cases hst : s.state with simp only [processCase, hst] at h
  | start | command =>
    split at h <;> cases h
    · exact .inl fun _ => id
    · exact mismatch_faultEffect hook
  | lowChannel => cases h; exact .inl fun _ => id
  | highChannel => exact processHigh_faultEffect (s := s.completeCount ch) hook h
  | data =>
    split at h
    · obtain ⟨u, hu, hdone⟩ := andThen_eq_next.1 h
      obtain ⟨-, rfl⟩ := memWrite_eq_next.1 hu
      cases hdone
      exact .inl (.of_event (e := .sinkWrite s.writeIndex.toNat ch) rfl nofun)
    · exact processFinish_faultEffect (s := s.goto .finish) hook h
  | finish => exact processFinish_faultEffect hook h

/-- A fault other than `'R'`, in a step that began with no event: the tag is the one put out. -/
theorem FaultEffect.faulted_of_error {tag : FaultTag} (he : FaultEffect s t) (hout : s.out = [])
    (herr : .error tag ∈ t.out) : tag ≠ .resync ∧ Faulted tag .start s t := by
  rcases he with hquiet | ⟨tag', htag, hfault⟩
  · exact absurd (hquiet tag herr) (by simp [hout])
  · obtain rfl := hfault.tag_eq hout herr
    exact ⟨htag, hfault⟩

/-- With the default hook a byte step that puts `Error(tag)` out has taken that fault; only a
resynchronization then goes on to `Command` (R64). -/
theorem processByte_faulted_of_error {raw : Byte} {tag : FaultTag}
    (hook : s.cfg.errHook = .default) (hout : s.out = []) (h : processByte raw s = .next t)
    (herr : .error tag ∈ t.out) :
    Faulted tag (if tag = .resync then .command else .start) s t := by
  rcases processByte_cases h with ⟨-, rfl⟩ | ⟨-, -, rfl⟩ | ⟨-, -, u, hu, rfl⟩
  · simp [hout] at herr
  · have hfault := raise_faulted (s := s.storeByte (chOf s.cfg raw)) hook .resync
    obtain rfl := hfault.tag_eq hout herr
    exact (hfault.goto .start).goto .command
  · have he := processCase_faultEffect (s := s.storeByte (chOf s.cfg raw)) hook hu
    obtain ⟨htag, hfault⟩ := he.faulted_of_error hout herr
    rw [if_neg htag]
    exact hfault

end

/-- Settles O16: the step is the byte step, which starts with no event of its own and has taken the
fault whose `Error` it puts out. -/
theorem errorsClearTheConfiguration : Obligations.ErrorsClearTheConfiguration := by
  intro s t raw now rest tag hook hin h herr
  rw [step_byteInput hin] at h
  exact processByte_faulted_of_error (s := s.take rest now) hook rfl h herr

/-! ## The resets -/

/-- Settles O9: the decoder's `rst` is creation and then the full reset of a state without events; a
timer's is the creation of that instance. -/
theorem hardwareResetCreatesAndInitializes : Obligations.HardwareResetCreatesAndInitializes := by
  refine ⟨?decoder, ?timer⟩
  case decoder =>
    intro s init v d now rest hok hin
    exact (step_rst hin).trans (hardwareReset_eq_next.2 ⟨hok, rfl⟩)
  case timer =>
    intro s k t tOp tArg now rest ht hok hin
    exact (step_timerReset hin).trans (timerReset_eq_next.2 ⟨t, ht, hok, rfl⟩)

/-- Settles O13: `State.fullReset` is R127's list, with its timer reset to the stamp of R65. -/
theorem fullResetWritesItsList : Obligations.FullResetWritesItsList :=
  fun _ => rfl

/-- Settles O14: the strobe's word is `CTRL.INIT`, whose operation is the full reset and no fault. -/
theorem initIsTheFullReset : Obligations.InitIsTheFullReset :=
  ⟨fun _ _ _ _ _ hin => step_init hin,
    fun s => congrArg Host.Outcome.next (fullResetWritesItsList s)⟩

end Sys2Proof.Machine
